-- ==== Sys2Proof/Word.lean ====
section
/-! DEFINITION. The word types of the machine: 8-bit registers and bytes, the 16-bit instruction word,
`I`, `pc` and stack entries, and the 12-bit immediate (R7, R14, R16, R17, R62). -/

namespace Sys2Proof

/-- A memory byte, a general register, a timer, an 8-bit immediate. -/
abbrev Byte := BitVec 8

/-- An instruction word, `I`, `pc`, a return address. -/
abbrev Word := BitVec 16

/-- The immediate `nnn` of R62. -/
abbrev Imm12 := BitVec 12

/-- A register number: "used directly as the index of `V`" (R62). -/
abbrev RegIx := Fin 16

end Sys2Proof
end

