-- ==== Sys2Proof/Config.lean ====
section
/-! DEFINITION. The FREE VALUES of the machine: what the spec leaves open at each occurrence, under no law.
Each is a constant without a body, applied to the count of free values taken so far (`State.draws`), so a
statement about one holds whatever it is. The parameters that have a default value in the spec (`FONT`,
`BIGFONT`, the frequencies) are in Sys2Proof/Machine/Params.lean. -/

namespace Sys2Proof

/-- The random byte `rnd` of the `n`-th free draw: "a free 8-bit input `rnd` of `cpu_step`, under no law"
(R30, R126, U11). Log entry 2. -/
opaque Config.freeByte : Nat → Byte

/-- Which of the pressed keys the `n`-th free draw picks, counted modulo how many are pressed: `KEY_SCAN`,
"any pressed key" (R164, U8). Log entry 3. -/
opaque Config.freeChoice : Nat → Nat

end Sys2Proof
end

