-- ==== Sys2Proof/Syntax.lean ====
section
/-! DEFINITION. The instruction set: one constructor per row of R66, in the table's order, with the operand
fields of R61 and R62. -/

namespace Sys2Proof

/-- The 43 instructions of R66. -/
inductive Instr where
  /-- `00E0` CLS (R91). -/
  | cls
  /-- `00EE` RET (R101). -/
  | ret
  /-- `00Cn` SCD n (R92). -/
  | scd (n : Fin 16)
  /-- `00FB` SCR (R93). -/
  | scr
  /-- `00FC` SCL (R94). -/
  | scl
  /-- `00FE` LOW (R95). -/
  | low
  /-- `00FF` HIGH (R96). -/
  | high
  /-- every other `0nnn` SYS nnn (R97). -/
  | sys (nnn : Imm12)
  /-- `1nnn` JP nnn (R102). -/
  | jp (nnn : Imm12)
  /-- `2nnn` CALL nnn (R103). -/
  | call (nnn : Imm12)
  /-- `3xnn` SE Vx,nn (R104). -/
  | seVxNn (x : RegIx) (nn : Byte)
  /-- `4xnn` SNE Vx,nn (R105). -/
  | sneVxNn (x : RegIx) (nn : Byte)
  /-- `5xy0` SE Vx,Vy (R106). -/
  | seVxVy (x y : RegIx)
  /-- `6xnn` LD Vx,nn (R115). -/
  | ldVxNn (x : RegIx) (nn : Byte)
  /-- `7xnn` ADD Vx,nn (R116). -/
  | addVxNn (x : RegIx) (nn : Byte)
  /-- `8xy0` LD Vx,Vy (R117). -/
  | ldVxVy (x y : RegIx)
  /-- `8xy1` OR Vx,Vy (R118). -/
  | orVxVy (x y : RegIx)
  /-- `8xy2` AND Vx,Vy (R119). -/
  | andVxVy (x y : RegIx)
  /-- `8xy3` XOR Vx,Vy (R120). -/
  | xorVxVy (x y : RegIx)
  /-- `8xy4` ADD Vx,Vy (R121). -/
  | addVxVy (x y : RegIx)
  /-- `8xy5` SUB Vx,Vy (R122). -/
  | subVxVy (x y : RegIx)
  /-- `8xy6` SHR Vx,Vy (R123). -/
  | shrVxVy (x y : RegIx)
  /-- `8xy7` SUBN Vx,Vy (R124). -/
  | subnVxVy (x y : RegIx)
  /-- `8xyE` SHL Vx,Vy (R125). -/
  | shlVxVy (x y : RegIx)
  /-- `9xy0` SNE Vx,Vy (R107). -/
  | sneVxVy (x y : RegIx)
  /-- `Annn` LD I,nnn (R136). -/
  | ldINnn (nnn : Imm12)
  /-- `Bnnn` JP V0,nnn (R109). -/
  | jpV0 (nnn : Imm12)
  /-- `Cxnn` RND Vx,nn (R126). -/
  | rnd (x : RegIx) (nn : Byte)
  /-- `Dxyn` DRW Vx,Vy,n (R150). -/
  | drw (x y : RegIx) (n : Fin 16)
  /-- `Ex9E` SKP Vx (R161). -/
  | skp (x : RegIx)
  /-- `ExA1` SKNP Vx (R162). -/
  | sknp (x : RegIx)
  /-- `Fx07` LD Vx,DT (R163). -/
  | ldVxDt (x : RegIx)
  /-- `Fx0A` LD Vx,K (R164). -/
  | ldVxK (x : RegIx)
  /-- `Fx15` LD DT,Vx (R165). -/
  | ldDtVx (x : RegIx)
  /-- `Fx18` LD ST,Vx (R166). -/
  | ldStVx (x : RegIx)
  /-- `Fx1E` ADD I,Vx (R137). -/
  | addIVx (x : RegIx)
  /-- `Fx29` LD F,Vx (R138). -/
  | ldFVx (x : RegIx)
  /-- `Fx30` LD HF,Vx (R139). -/
  | ldHfVx (x : RegIx)
  /-- `Fx33` LD B,Vx (R140). -/
  | ldBVx (x : RegIx)
  /-- `Fx55` LD [I],Vx (R141). -/
  | ldMemVx (x : RegIx)
  /-- `Fx65` LD Vx,[I] (R142). -/
  | ldVxMem (x : RegIx)
  /-- `Fx75` LD R,Vx (R143). -/
  | ldRVx (x : RegIx)
  /-- `Fx85` LD Vx,R (R144). -/
  | ldVxR (x : RegIx)
deriving DecidableEq, Repr

end Sys2Proof
end

