-- ==== Sys2Proof/WellFormed.lean ====
section
/-! DEFINITION. Which terms of `Instr` are instructions of the machine. Register numbers, counts and
immediates are in range by their types; the one check left is on `SYS`, the catch-all of group 0, which
stands only for the words that no earlier row of group 0 takes (R65, R97). -/

namespace Sys2Proof

/-- `0nnn` belongs to `SYS`: it is none of the 22 words of the seven specific rows of group 0 (R65). -/
def Instr.sysAddrOk (nnn : Imm12) : Bool :=
  nnn ≠ 0x0E0 && nnn ≠ 0x0EE && nnn.toNat / 16 ≠ 0x0C && nnn ≠ 0x0FB && nnn ≠ 0x0FC && nnn ≠ 0x0FE &&
    nnn ≠ 0x0FF

/-- The instruction is one the decoder can answer. -/
def Instr.wellFormed (i : Instr) : Bool :=
  match i with
  | .sys nnn => Instr.sysAddrOk nnn
  | .cls | .ret | .scd _ | .scr | .scl | .low | .high => true
  | .jp _ | .call _ | .seVxNn _ _ | .sneVxNn _ _ | .seVxVy _ _ => true
  | .ldVxNn _ _ | .addVxNn _ _ | .ldVxVy _ _ | .orVxVy _ _ | .andVxVy _ _ | .xorVxVy _ _ => true
  | .addVxVy _ _ | .subVxVy _ _ | .shrVxVy _ _ | .subnVxVy _ _ | .shlVxVy _ _ | .sneVxVy _ _ => true
  | .ldINnn _ | .jpV0 _ | .rnd _ _ | .drw _ _ _ | .skp _ | .sknp _ => true
  | .ldVxDt _ | .ldVxK _ | .ldDtVx _ | .ldStVx _ | .addIVx _ | .ldFVx _ | .ldHfVx _ | .ldBVx _ => true
  | .ldMemVx _ | .ldVxMem _ | .ldRVx _ | .ldVxR _ => true

end Sys2Proof
end

