-- ==== Sys2Proof/Decode.lean ====
section
/-! DEFINITION. The decoder (R60 to R69), total on every word and on every list of bytes and rejecting by
name; then the encoder, written from the patterns of R66, and the rows of the opcode table as mask and match. -/

namespace Sys2Proof

/-- Why bytes are not an instruction. -/
inductive DecodeError where
  /-- The word matches no row of R66 (R67); "must abort with the raw instruction word reported". -/
  | unknownOpcode (w : Word)
  /-- Fewer than the two bytes of an instruction (R60). -/
  | truncated
deriving DecidableEq, Repr

/-! Fields of a word (R7, R61): four nibbles, most significant first, `nn` and `nnn`. -/

/-- `op1 = w[15:12]`. -/
def op1 (w : Word) : Fin 16 := ⟨w.toNat / 4096 % 16, Nat.mod_lt _ (by decide)⟩

/-- `op2 = x = w[11:8]`. -/
def op2 (w : Word) : Fin 16 := ⟨w.toNat / 256 % 16, Nat.mod_lt _ (by decide)⟩

/-- `op3 = y = w[7:4]`. -/
def op3 (w : Word) : Fin 16 := ⟨w.toNat / 16 % 16, Nat.mod_lt _ (by decide)⟩

/-- `op4 = n = w[3:0]`. -/
def op4 (w : Word) : Fin 16 := ⟨w.toNat % 16, Nat.mod_lt _ (by decide)⟩

/-- `nn = w[7:0]`. -/
def immNn (w : Word) : Byte := BitVec.ofNat 8 w.toNat

/-- `nnn = w[11:0]`. -/
def immNnn (w : Word) : Imm12 := BitVec.ofNat 12 w.toNat

/-- Group 0, tried in the order of R65; every other word is `SYS`. -/
def decodeGroup0 (w : Word) : Instr :=
  if w = 0x00E0 then .cls
  else if w = 0x00EE then .ret
  else if w.toNat / 16 = 0x00C then .scd (op4 w)
  else if w = 0x00FB then .scr
  else if w = 0x00FC then .scl
  else if w = 0x00FE then .low
  else if w = 0x00FF then .high
  else .sys (immNnn w)

/-- Group 8, by `op4` (R64). -/
def decodeGroup8 (w : Word) : Except DecodeError Instr :=
  match (op4 w).val with
  | 0x0 => .ok (.ldVxVy (op2 w) (op3 w))
  | 0x1 => .ok (.orVxVy (op2 w) (op3 w))
  | 0x2 => .ok (.andVxVy (op2 w) (op3 w))
  | 0x3 => .ok (.xorVxVy (op2 w) (op3 w))
  | 0x4 => .ok (.addVxVy (op2 w) (op3 w))
  | 0x5 => .ok (.subVxVy (op2 w) (op3 w))
  | 0x6 => .ok (.shrVxVy (op2 w) (op3 w))
  | 0x7 => .ok (.subnVxVy (op2 w) (op3 w))
  | 0xE => .ok (.shlVxVy (op2 w) (op3 w))
  | _ => .error (.unknownOpcode w)

/-- Group E, by `nn` (R64). -/
def decodeGroupE (w : Word) : Except DecodeError Instr :=
  match (immNn w).toNat with
  | 0x9E => .ok (.skp (op2 w))
  | 0xA1 => .ok (.sknp (op2 w))
  | _ => .error (.unknownOpcode w)

/-- Group F, by `nn` (R64). -/
def decodeGroupF (w : Word) : Except DecodeError Instr :=
  match (immNn w).toNat with
  | 0x07 => .ok (.ldVxDt (op2 w))
  | 0x0A => .ok (.ldVxK (op2 w))
  | 0x15 => .ok (.ldDtVx (op2 w))
  | 0x18 => .ok (.ldStVx (op2 w))
  | 0x1E => .ok (.addIVx (op2 w))
  | 0x29 => .ok (.ldFVx (op2 w))
  | 0x30 => .ok (.ldHfVx (op2 w))
  | 0x33 => .ok (.ldBVx (op2 w))
  | 0x55 => .ok (.ldMemVx (op2 w))
  | 0x65 => .ok (.ldVxMem (op2 w))
  | 0x75 => .ok (.ldRVx (op2 w))
  | 0x85 => .ok (.ldVxR (op2 w))
  | _ => .error (.unknownOpcode w)

/-- The total decoder of R63 and R69: "Dispatch is by the 4-tuple"; it reads nothing but the word (R83). -/
def decode (w : Word) : Except DecodeError Instr :=
  match (op1 w).val with
  | 0x0 => .ok (decodeGroup0 w)
  | 0x1 => .ok (.jp (immNnn w))
  | 0x2 => .ok (.call (immNnn w))
  | 0x3 => .ok (.seVxNn (op2 w) (immNn w))
  | 0x4 => .ok (.sneVxNn (op2 w) (immNn w))
  | 0x5 => if op4 w = 0 then .ok (.seVxVy (op2 w) (op3 w)) else .error (.unknownOpcode w)
  | 0x6 => .ok (.ldVxNn (op2 w) (immNn w))
  | 0x7 => .ok (.addVxNn (op2 w) (immNn w))
  | 0x8 => decodeGroup8 w
  | 0x9 => if op4 w = 0 then .ok (.sneVxVy (op2 w) (op3 w)) else .error (.unknownOpcode w)
  | 0xA => .ok (.ldINnn (immNnn w))
  | 0xB => .ok (.jpV0 (immNnn w))
  | 0xC => .ok (.rnd (op2 w) (immNn w))
  | 0xD => .ok (.drw (op2 w) (op3 w) (op4 w))
  | 0xE => decodeGroupE w
  | _ => decodeGroupF w

/-- The word of two bytes, the first one high: `w[15:8] = mem[pc]`, `w[7:0] = mem[pc+1]` (R46, R60). -/
def wordOfBytes (hi lo : Byte) : Word := BitVec.ofNat 16 (hi.toNat * 256 + lo.toNat)

/-- The byte at the lower address, `w[15:8]`. -/
def highByte (w : Word) : Byte := BitVec.ofNat 8 (w.toNat / 256)

/-- The byte at the higher address, `w[7:0]`. -/
def lowByte (w : Word) : Byte := BitVec.ofNat 8 w.toNat

/-- The decoder on bytes in memory order: the instruction and the bytes after it. -/
def decodeBytes (bs : List Byte) : Except DecodeError (Instr × List Byte) :=
  match bs with
  | hi :: lo :: rest =>
    match decode (wordOfBytes hi lo) with
    | .ok i => .ok (i, rest)
    | .error e => .error e
  | [_] => .error .truncated
  | [] => .error .truncated

/-! The encoder: formats of R61. -/

/-- Formats `XY` and `XYN`: four nibbles. -/
def packNibbles (a b c d : Fin 16) : Word := BitVec.ofNat 16 (a.val * 4096 + b.val * 256 + c.val * 16 + d.val)

/-- Format `NNN`. -/
def packNnn (a : Fin 16) (nnn : Imm12) : Word := BitVec.ofNat 16 (a.val * 4096 + nnn.toNat)

/-- Formats `XNN` and `X`. -/
def packXnn (a x : Fin 16) (nn : Byte) : Word := BitVec.ofNat 16 (a.val * 4096 + x.val * 256 + nn.toNat)

/-- The word of an instruction, from the patterns of R66. -/
def encode (i : Instr) : Word :=
  match i with
  | .cls => 0x00E0
  | .ret => 0x00EE
  | .scd n => packNibbles 0x0 0x0 0xC n
  | .scr => 0x00FB
  | .scl => 0x00FC
  | .low => 0x00FE
  | .high => 0x00FF
  | .sys nnn => packNnn 0x0 nnn
  | .jp nnn => packNnn 0x1 nnn
  | .call nnn => packNnn 0x2 nnn
  | .seVxNn x nn => packXnn 0x3 x nn
  | .sneVxNn x nn => packXnn 0x4 x nn
  | .seVxVy x y => packNibbles 0x5 x y 0x0
  | .ldVxNn x nn => packXnn 0x6 x nn
  | .addVxNn x nn => packXnn 0x7 x nn
  | .ldVxVy x y => packNibbles 0x8 x y 0x0
  | .orVxVy x y => packNibbles 0x8 x y 0x1
  | .andVxVy x y => packNibbles 0x8 x y 0x2
  | .xorVxVy x y => packNibbles 0x8 x y 0x3
  | .addVxVy x y => packNibbles 0x8 x y 0x4
  | .subVxVy x y => packNibbles 0x8 x y 0x5
  | .shrVxVy x y => packNibbles 0x8 x y 0x6
  | .subnVxVy x y => packNibbles 0x8 x y 0x7
  | .shlVxVy x y => packNibbles 0x8 x y 0xE
  | .sneVxVy x y => packNibbles 0x9 x y 0x0
  | .ldINnn nnn => packNnn 0xA nnn
  | .jpV0 nnn => packNnn 0xB nnn
  | .rnd x nn => packXnn 0xC x nn
  | .drw x y n => packNibbles 0xD x y n
  | .skp x => packXnn 0xE x 0x9E
  | .sknp x => packXnn 0xE x 0xA1
  | .ldVxDt x => packXnn 0xF x 0x07
  | .ldVxK x => packXnn 0xF x 0x0A
  | .ldDtVx x => packXnn 0xF x 0x15
  | .ldStVx x => packXnn 0xF x 0x18
  | .addIVx x => packXnn 0xF x 0x1E
  | .ldFVx x => packXnn 0xF x 0x29
  | .ldHfVx x => packXnn 0xF x 0x30
  | .ldBVx x => packXnn 0xF x 0x33
  | .ldMemVx x => packXnn 0xF x 0x55
  | .ldVxMem x => packXnn 0xF x 0x65
  | .ldRVx x => packXnn 0xF x 0x75
  | .ldVxR x => packXnn 0xF x 0x85

/-- The two bytes of an instruction in memory order (R46). -/
def encodeBytes (i : Instr) : List Byte := [highByte (encode i), lowByte (encode i)]

/-! The opcode table of R66 as data. -/

/-- One row of R66: `w` selects it when `(w & mask) == pattern`. -/
structure OpcodeRow where
  mask : Word
  pattern : Word
deriving DecidableEq, Repr

/-- The row an instruction stands for. -/
def Instr.row (i : Instr) : OpcodeRow :=
  match i with
  | .cls => ⟨0xFFFF, 0x00E0⟩
  | .ret => ⟨0xFFFF, 0x00EE⟩
  | .scd _ => ⟨0xFFF0, 0x00C0⟩
  | .scr => ⟨0xFFFF, 0x00FB⟩
  | .scl => ⟨0xFFFF, 0x00FC⟩
  | .low => ⟨0xFFFF, 0x00FE⟩
  | .high => ⟨0xFFFF, 0x00FF⟩
  | .sys _ => ⟨0xF000, 0x0000⟩
  | .jp _ => ⟨0xF000, 0x1000⟩
  | .call _ => ⟨0xF000, 0x2000⟩
  | .seVxNn _ _ => ⟨0xF000, 0x3000⟩
  | .sneVxNn _ _ => ⟨0xF000, 0x4000⟩
  | .seVxVy _ _ => ⟨0xF00F, 0x5000⟩
  | .ldVxNn _ _ => ⟨0xF000, 0x6000⟩
  | .addVxNn _ _ => ⟨0xF000, 0x7000⟩
  | .ldVxVy _ _ => ⟨0xF00F, 0x8000⟩
  | .orVxVy _ _ => ⟨0xF00F, 0x8001⟩
  | .andVxVy _ _ => ⟨0xF00F, 0x8002⟩
  | .xorVxVy _ _ => ⟨0xF00F, 0x8003⟩
  | .addVxVy _ _ => ⟨0xF00F, 0x8004⟩
  | .subVxVy _ _ => ⟨0xF00F, 0x8005⟩
  | .shrVxVy _ _ => ⟨0xF00F, 0x8006⟩
  | .subnVxVy _ _ => ⟨0xF00F, 0x8007⟩
  | .shlVxVy _ _ => ⟨0xF00F, 0x800E⟩
  | .sneVxVy _ _ => ⟨0xF00F, 0x9000⟩
  | .ldINnn _ => ⟨0xF000, 0xA000⟩
  | .jpV0 _ => ⟨0xF000, 0xB000⟩
  | .rnd _ _ => ⟨0xF000, 0xC000⟩
  | .drw _ _ _ => ⟨0xF000, 0xD000⟩
  | .skp _ => ⟨0xF0FF, 0xE09E⟩
  | .sknp _ => ⟨0xF0FF, 0xE0A1⟩
  | .ldVxDt _ => ⟨0xF0FF, 0xF007⟩
  | .ldVxK _ => ⟨0xF0FF, 0xF00A⟩
  | .ldDtVx _ => ⟨0xF0FF, 0xF015⟩
  | .ldStVx _ => ⟨0xF0FF, 0xF018⟩
  | .addIVx _ => ⟨0xF0FF, 0xF01E⟩
  | .ldFVx _ => ⟨0xF0FF, 0xF029⟩
  | .ldHfVx _ => ⟨0xF0FF, 0xF030⟩
  | .ldBVx _ => ⟨0xF0FF, 0xF033⟩
  | .ldMemVx _ => ⟨0xF0FF, 0xF055⟩
  | .ldVxMem _ => ⟨0xF0FF, 0xF065⟩
  | .ldRVx _ => ⟨0xF0FF, 0xF075⟩
  | .ldVxR _ => ⟨0xF0FF, 0xF085⟩

/-- The 43 rows in the order of R66. -/
def opcodeTable : List OpcodeRow :=
  [⟨0xFFFF, 0x00E0⟩, ⟨0xFFFF, 0x00EE⟩, ⟨0xFFF0, 0x00C0⟩, ⟨0xFFFF, 0x00FB⟩, ⟨0xFFFF, 0x00FC⟩,
    ⟨0xFFFF, 0x00FE⟩, ⟨0xFFFF, 0x00FF⟩, ⟨0xF000, 0x0000⟩, ⟨0xF000, 0x1000⟩, ⟨0xF000, 0x2000⟩,
    ⟨0xF000, 0x3000⟩, ⟨0xF000, 0x4000⟩, ⟨0xF00F, 0x5000⟩, ⟨0xF000, 0x6000⟩, ⟨0xF000, 0x7000⟩] ++
  [⟨0xF00F, 0x8000⟩, ⟨0xF00F, 0x8001⟩, ⟨0xF00F, 0x8002⟩, ⟨0xF00F, 0x8003⟩, ⟨0xF00F, 0x8004⟩,
    ⟨0xF00F, 0x8005⟩, ⟨0xF00F, 0x8006⟩, ⟨0xF00F, 0x8007⟩, ⟨0xF00F, 0x800E⟩, ⟨0xF00F, 0x9000⟩,
    ⟨0xF000, 0xA000⟩, ⟨0xF000, 0xB000⟩, ⟨0xF000, 0xC000⟩, ⟨0xF000, 0xD000⟩] ++
  [⟨0xF0FF, 0xE09E⟩, ⟨0xF0FF, 0xE0A1⟩, ⟨0xF0FF, 0xF007⟩, ⟨0xF0FF, 0xF00A⟩, ⟨0xF0FF, 0xF015⟩,
    ⟨0xF0FF, 0xF018⟩, ⟨0xF0FF, 0xF01E⟩, ⟨0xF0FF, 0xF029⟩, ⟨0xF0FF, 0xF030⟩, ⟨0xF0FF, 0xF033⟩,
    ⟨0xF0FF, 0xF055⟩, ⟨0xF0FF, 0xF065⟩, ⟨0xF0FF, 0xF075⟩, ⟨0xF0FF, 0xF085⟩]

/-- `(w & mask) == pattern` (R63). -/
def OpcodeRow.selects (r : OpcodeRow) (w : Word) : Bool := w &&& r.mask == r.pattern

/-- The instruction of the table's bits `w` in the first `nbits` bits, the rest zero, read by the decoder from
its two bytes in memory order; `none` where the decoder refuses. -/
def decodeTableWord (nbits w : Nat) : Option Instr :=
  let word : Word := BitVec.ofNat 16 (w % 2 ^ nbits)
  match decodeBytes [highByte word, lowByte word] with
  | .ok (i, _) => some i
  | .error _ => none

end Sys2Proof
end

