-- ==== Sys2Proof/Machine/Params.lean ====
section
/-! DEFINITION. The parameters of R5: what a model takes as an argument, their default values, the addresses that
are fixed, and the reset contents of memory they give (R12). The default values stand here as definitions of their
own, so that a later repair can mend one. -/

namespace Sys2Proof.Machine

/-- The parameters the spec leaves to whoever builds the machine: "A name in capitals is a parameter the model takes
as an argument" (R5). They are fixed for the machine; no operation writes them (log entry 33). -/
structure Params where
  /-- `FONT`, the 80 bytes at 0x000 (R12, R13, D8). -/
  font : Vector Byte 80
  /-- `BIGFONT`, the bytes copied at `BIGFONT_BASE` at reset, at most 160 (R12, R41, D9). -/
  bigFont : List Byte
  /-- `F_CPU`, in Hz (R190, D36). -/
  freqCpu : Rat
  /-- `F_TIMER`, in Hz (R190, D36). -/
  freqTimers : Rat
  /-- `F_DISPLAY`, in Hz (R190, D36). -/
  freqDisplay : Rat
deriving DecidableEq, Repr

/-- The last valid address, 0xFFF (R11, R43). -/
def topAddress : Nat := 0xFFF

/-- Where a program is loaded and where execution starts (R5, R203). -/
def programBase : Nat := 0x200

/-- The most bytes `load` takes: 4096 - 0x200 (R203). -/
def maxImage : Nat := 3584

/-- Bytes between two standard glyphs (R13, R138). -/
def fontStride : Nat := 5

/-- `BIGFONT_BASE`: the first byte past the standard font table (R12, R139, D9; log entry 6). -/
def bigFontBase : Nat := 0x050

/-- The first byte past the range the map gives `BIGFONT`, 0x050 to 0x0EF: 16 glyphs of 10 bytes (R41). -/
def bigFontEnd : Nat := 0x0F0

/-- Bytes between two high-resolution glyphs (R139). -/
def bigFontStride : Nat := 10

/-- The default of `FONT`: the table of R13, glyph by glyph. PRESUMED (GK1, log entry 5). -/
def defaultFont : List Byte :=
  [0xF0, 0x90, 0x90, 0x90, 0xF0] ++ [0x20, 0x60, 0x20, 0x20, 0x70] ++
  [0xF0, 0x10, 0xF0, 0x80, 0xF0] ++ [0xF0, 0x10, 0xF0, 0x10, 0xF0] ++
  [0x90, 0x90, 0xF0, 0x10, 0x10] ++ [0xF0, 0x80, 0xF0, 0x10, 0xF0] ++
  [0xF0, 0x80, 0xF0, 0x90, 0xF0] ++ [0xF0, 0x10, 0x20, 0x40, 0x40] ++
  [0xF0, 0x90, 0xF0, 0x90, 0xF0] ++ [0xF0, 0x90, 0xF0, 0x10, 0xF0] ++
  [0xF0, 0x90, 0xF0, 0x90, 0x90] ++ [0xE0, 0x90, 0xE0, 0x90, 0xE0] ++
  [0xF0, 0x80, 0x80, 0x80, 0xF0] ++ [0xE0, 0x90, 0x90, 0x90, 0xE0] ++
  [0xF0, 0x80, 0xF0, 0x80, 0xF0] ++ [0xF0, 0x80, 0xF0, 0x80, 0x80]

/-- The defaults of R5: the customary font, no high-resolution font, 700, 60 and 60 Hz (log entries 5, 6, 19). -/
def defaultParams : Params where
  font := ⟨⟨defaultFont⟩, rfl⟩
  bigFont := []
  freqCpu := 700
  freqTimers := 60
  freqDisplay := 60

/-- Values the parameters can take: `BIGFONT` fits in the range the map gives it (R41), and a frequency is not
negative. -/
def Params.wf (p : Params) : Prop :=
  bigFontBase + p.bigFont.length ≤ bigFontEnd ∧ 0 ≤ p.freqCpu ∧ 0 ≤ p.freqTimers ∧ 0 ≤ p.freqDisplay

/-- What memory holds at an address right after `reset`: `FONT` below 0x050, `BIGFONT` from there to 0x0EF, and zero
elsewhere (R12, R31, R41). -/
def resetByte (p : Params) (a : Nat) : Byte :=
  if h : a < 80 then p.font[a]
  else if a < bigFontEnd then p.bigFont.getD (a - bigFontBase) 0
  else 0

end Sys2Proof.Machine
end

