-- ==== Sys2Proof/Machine/State.lean ====
section
/-! DEFINITION. The state of the machine as plain data: every piece of R10, its parameters (R5), and two fields of the
model's own (`draws`, `pending`), and the state at creation (R31, R201). -/

namespace Sys2Proof.Machine

/-- The name of a bundle of the quirk profile: "The three bundles are the only values `Q` can take" (R26). -/
inductive Profile where
  | chip8
  | schip
  | xo
deriving DecidableEq, Repr

/-- The value of `fault` once a run has ended (R29, R170). -/
inductive FaultStatus where
  /-- The fetched word matches no opcode; the raw word is recorded (R171). -/
  | unknownOpcode (w : Word)
  /-- A memory, stack or key index outside its bounds (R172). -/
  | outOfRange
deriving DecidableEq, Repr

/-- The nine operations of R6, as calls the host may make, and a frame in progress. -/
inductive HostOp where
  /-- `reset` (R200). -/
  | reset
  /-- `load(image)` (R203). -/
  | load (image : List Byte)
  /-- `set_key(k, pressed)` (R180). -/
  | setKey (k : Nat) (pressed : Bool)
  /-- `select_profile(name)` (R181). -/
  | selectProfile (name : String)
  /-- `cpu_step` (R80). -/
  | cpuStep
  /-- `timer_tick` (R185). -/
  | timerTick
  /-- `display_tick` (R187). -/
  | displayTick
  /-- `schedule(prev, now)`, timestamps in seconds (R190). -/
  | schedule (prev now : Rat)
  /-- the host frame procedure (R193). -/
  | frame (prev now : Rat)
  /-- A frame in progress: the counts of its calls still to make, CPU steps first, then timer ticks, then display
  ticks (R193). -/
  | frameRest (cpu timers display : Nat)
deriving DecidableEq, Repr

/-- The cells of memory that differ from what memory holds right after reset. -/
abbrev Memory := List Host.Cell

/-- The full display buffer, rows from the top, columns from the left; `true` is a lit pixel (R22). -/
abbrev Screen := Vector (Vector Bool 128) 64

/-- The machine's state (R10). -/
structure State where
  /-- `mem`, 4096 bytes (R11, R12). -/
  mem : Memory
  /-- `V[0..15]` (R14); `V[15]` is `VF` (R15). -/
  v : Vector Byte 16
  /-- `I` (R16). -/
  i : Word
  /-- `pc` (R17). -/
  pc : Word
  /-- `sp`, "an integer in 0 to 16" (R18). -/
  sp : Fin 17
  /-- `stack[0..15]` (R19). -/
  stack : Vector Word 16
  /-- `rpl[0..15]` (R20). -/
  rpl : Vector Byte 16
  /-- `delay` (R21). -/
  delay : Byte
  /-- `sound` (R21). -/
  sound : Byte
  /-- `screen` (R22). -/
  screen : Screen
  /-- `hires` (R23). -/
  hires : Bool
  /-- `vblank_wait` (R24). -/
  vblankWait : Bool
  /-- `keys[0..15]`, true means pressed (R25). -/
  keys : Vector Bool 16
  /-- `Q`, which bundle is active (R26, R27). -/
  profile : Profile
  /-- `acc[cpu]` (R28). -/
  accCpu : Rat
  /-- `acc[timers]` (R28). -/
  accTimers : Rat
  /-- `acc[display]` (R28). -/
  accDisplay : Rat
  /-- `fault`, none while the machine runs (R29). -/
  fault : Option FaultStatus
  /-- The parameters of R5, fixed for the machine: no operation writes them (log entry 33). -/
  params : Params
  /-- The model's own: how many free values have been taken (log entry 2). -/
  draws : Nat
  /-- The model's own: the host's calls still to come, oldest first; when there is none the host calls
  `cpu_step` (log entry 1). -/
  pending : List HostOp
deriving DecidableEq, Repr

/-- Why a step has no next state. -/
inductive Fault where
  /-- `cpu_step` was called while `fault` was set: it "has no transition" (R85, R174). Raised by `cpuStep` only.
  Safe: the spec gives the call no successor state. -/
  | dead (cause : FaultStatus)
deriving DecidableEq, Repr

/-- Why an instruction has no meaning in the model. No arm of `exec` answers it: every instruction is modelled. -/
inductive Refusal where
  /-- Raised by an arm of `exec` for an instruction not modelled yet. Safe: no next state is claimed. -/
  | notModelled (mnemonic : String)
deriving DecidableEq, Repr

/-- What a `cpu_step` call reports: "A model's step function should return these as distinct results" (R85). -/
inductive CpuResult where
  /-- One instruction ran and its effects are committed. -/
  | executed
  /-- The call was suspended and changed nothing (R81). -/
  | stalled
  /-- The call raised a fault, which is all it changed (R173). -/
  | faulted (f : FaultStatus)
  /-- `fault` was already set: the call has no transition (R174). -/
  | noTransition
deriving DecidableEq, Repr

/-- The state at creation of a machine with the given parameters, which is the state after `reset` together with the
`chip8` bundle and zero accumulators (R31, R201). Memory lists nothing: an unlisted address reads as the reset
contents of R12. -/
def State.creation (p : Params) : State where
  mem := []
  v := Vector.replicate 16 0
  i := 0
  pc := 0x200
  sp := 0
  stack := Vector.replicate 16 0
  rpl := Vector.replicate 16 0
  delay := 0
  sound := 0
  screen := Vector.replicate 64 (Vector.replicate 128 false)
  hires := false
  vblankWait := false
  keys := Vector.replicate 16 false
  profile := .chip8
  accCpu := 0
  accTimers := 0
  accDisplay := 0
  fault := none
  params := p
  draws := 0
  pending := []

/-- The machine right after reset, with the default parameters of R5. -/
def State.reset : State := State.creation defaultParams

end Sys2Proof.Machine
end

