-- ==== Sys2Proof/Machine/Ops.lean ====
section
/-! DEFINITION. The named operations over memory, screen and registers; the fetch of a word; raising a fault,
the machine's only exception, and the reset that alone ends it. -/

namespace Sys2Proof.Machine

/-! Memory (R43 to R45). -/

/-- The byte at an address (R44, `n = 1`). An unlisted address holds its reset contents. -/
def Memory.read (m : Memory) (p : Params) (a : Nat) : Byte :=
  match m with
  | [] => resetByte p a
  | c :: rest => if c.1 = a then c.2 else Memory.read rest p a

/-- The memory with no cell listed at `a`. -/
def Memory.forget (m : Memory) (a : Nat) : Memory := m.filter (fun c => c.1 != a)

/-- The memory with a cell listed at `a`, before the first higher address. -/
def Memory.list (m : Memory) (a : Nat) (b : Byte) : Memory :=
  match m with
  | [] => [(a, b)]
  | c :: rest => if a < c.1 then (a, b) :: c :: rest else c :: Memory.list rest a b

/-- `mem[a] <- b` (R45): "A write changes that byte and nothing else." -/
def Memory.write (m : Memory) (p : Params) (a : Nat) (b : Byte) : Memory :=
  if b = resetByte p a then m.forget a else (m.forget a).list a b

/-- Consecutive bytes written in ascending order (R49). -/
def Memory.writeBytes (m : Memory) (p : Params) (a : Nat) (bs : List Byte) : Memory :=
  match bs with
  | [] => m
  | b :: rest => Memory.writeBytes (m.write p a b) p (a + 1) rest

/-- The canonical form: addresses strictly rising, all of them addresses of the machine, no cell equal to what
an unlisted address reads as. -/
abbrev Memory.wf (m : Memory) (p : Params) : Prop :=
  m.Pairwise (fun c d => c.1 < d.1) ∧ ∀ c ∈ m, c.1 ≤ topAddress ∧ c.2 ≠ resetByte p c.1

/-- Every byte of an access of `n` bytes at `a` is in memory (R44, R45, R135). An access of no bytes reads
nothing and cannot fault (R150). -/
def inMemory (a n : Nat) : Bool := n = 0 || a + n - 1 ≤ topAddress

/-! The display buffer (R22). -/

/-- `screen[r][c]`; false outside the buffer. -/
def Screen.cell (scr : Screen) (r c : Nat) : Bool :=
  if h : r < 64 ∧ c < 128 then (scr[r]'h.1)[c]'h.2 else false

/-- The buffer whose cell at row `r` and column `c` is `f r c`. -/
def Screen.ofCells (f : Nat → Nat → Bool) : Screen :=
  Vector.ofFn fun r => Vector.ofFn fun c => f r.val c.val

/-- `screen[r][c] <- not screen[r][c]` (R154); nothing outside the buffer. -/
def Screen.toggle (scr : Screen) (r c : Nat) : Screen :=
  if h : r < 64 ∧ c < 128 then
    scr.set r ((scr[r]'h.1).set c (!(scr[r]'h.1)[c]'h.2) h.2) h.1
  else scr

/-! One update per field of the state. -/

/-- `mem <- m`. -/
def State.setMem (m : Memory) (s : State) : State := { s with mem := m }

/-- All of `V[0..15]` at once. -/
def State.setRegs (v : Vector Byte 16) (s : State) : State := { s with v := v }

/-- `I <- w`. -/
def State.setI (w : Word) (s : State) : State := { s with i := w }

/-- `pc <- w`. -/
def State.setPc (w : Word) (s : State) : State := { s with pc := w }

/-- `sp <- n`. -/
def State.setSp (n : Fin 17) (s : State) : State := { s with sp := n }

/-- All of `stack[0..15]` at once. -/
def State.setStack (st : Vector Word 16) (s : State) : State := { s with stack := st }

/-- All of `rpl[0..15]` at once. -/
def State.setRpl (v : Vector Byte 16) (s : State) : State := { s with rpl := v }

/-- `delay <- b`. -/
def State.setDelay (b : Byte) (s : State) : State := { s with delay := b }

/-- `sound <- b`. -/
def State.setSound (b : Byte) (s : State) : State := { s with sound := b }

/-- `screen <- scr`. -/
def State.setScreen (scr : Screen) (s : State) : State := { s with screen := scr }

/-- `hires <- b`. -/
def State.setHires (b : Bool) (s : State) : State := { s with hires := b }

/-- `vblank_wait <- b`. -/
def State.setLatch (b : Bool) (s : State) : State := { s with vblankWait := b }

/-- All of `keys[0..15]` at once. -/
def State.setKeys (k : Vector Bool 16) (s : State) : State := { s with keys := k }

/-- `Q <- bundle`. -/
def State.setProfile (p : Profile) (s : State) : State := { s with profile := p }

/-- The three accumulators (R28). -/
def State.setAccs (cpu timers display : Rat) (s : State) : State :=
  { s with accCpu := cpu, accTimers := timers, accDisplay := display }

/-- `fault <- f`. -/
def State.setFault (f : Option FaultStatus) (s : State) : State := { s with fault := f }

/-- The count of free values taken. -/
def State.setDraws (n : Nat) (s : State) : State := { s with draws := n }

/-- The host's calls still to come. -/
def State.setPending (ops : List HostOp) (s : State) : State := { s with pending := ops }

/-! Memory of the machine. -/

/-- `mem[a]` (R44). -/
def State.byteAt (s : State) (a : Nat) : Byte := s.mem.read s.params a

/-- `mem[a..] <- bs`, in ascending order (R45, R49). -/
def State.store (a : Nat) (bs : List Byte) (s : State) : State := s.setMem (s.mem.writeBytes s.params a bs)

/-! Registers, program counter and stack. -/

/-- The flag register `VF` (R15). -/
def flagReg : RegIx := 15

/-- `V[x]`. -/
def State.getV (s : State) (x : RegIx) : Byte := s.v[x.val]

/-- `V[x] <- b`. -/
def State.setV (x : RegIx) (b : Byte) (s : State) : State := s.setRegs (s.v.set x.val b)

/-- `VF <- b`. -/
def State.setFlag (b : Byte) (s : State) : State := s.setV flagReg b

/-- `for k in 0..x: V[k] <- f(k)`; registers above `Vx` are unchanged (R142, R144). -/
def State.setRegsUpTo (x : RegIx) (f : RegIx → Byte) (s : State) : State :=
  s.setRegs (Vector.ofFn fun k => if k ≤ x then f k else s.getV k)

/-- `V[0..x]` in ascending order, `x+1` bytes (R141). -/
def State.regsUpTo (s : State) (x : RegIx) : List Byte := s.v.toList.take (x.val + 1)

/-- The `pc <- pc + 2` of fetch (R82). -/
def State.advance (s : State) : State := s.setPc (s.pc + 2)

/-- `skip`: over the next instruction (R8, R100). -/
def State.skip (s : State) : State := s.setPc (s.pc + 2)

/-- `skip` when the condition holds. -/
def State.skipIf (b : Bool) (s : State) : State := if b then s.skip else s

/-- `pc <- pc - 2`, back to the instruction itself (R164). -/
def State.rewind (s : State) : State := s.setPc (s.pc - 2)

/-- `stack[sp] <- pc; sp <- sp + 1` (R103), for `sp` below 16. -/
def State.push (s : State) (h : s.sp.val < 16) : State :=
  (s.setStack (s.stack.set s.sp.val s.pc)).setSp ⟨s.sp.val + 1, by omega⟩

/-- `sp <- sp - 1; pc <- stack[sp]` (R101), for `sp` above 0. -/
def State.pop (s : State) (h : 0 < s.sp.val) : State :=
  (s.setPc (s.stack[s.sp.val - 1]'(by omega))).setSp ⟨s.sp.val - 1, by omega⟩

/-- The key numbers with `keys[k]`, ascending (R164). -/
def State.pressedKeys (s : State) : List RegIx := (List.finRange 16).filter fun k => s.keys[k.val]

/-! Faults (R170 to R174). -/

/-- Taking a fault: "the only state change is `fault <- UnknownOpcode(w)` or `fault <- OutOfRange`"; `pc` keeps
the address of the faulting instruction (R173). The state given is the one before fetch. -/
def takeFault (f : FaultStatus) (s : State) : State := s.setFault (some f)

/-- A step that raises `OutOfRange` (R172). -/
def raiseOutOfRange (s : State) : Host.Outcome State Fault Refusal := .next (takeFault .outOfRange s)

/-- `reset` (R200), the only way out of a fault (R174): every piece of Machine State as at creation; `Q` and the
accumulators are not Machine State and keep their values. The parameters and the model's own fields keep theirs
too. -/
def hostReset (s : State) : State :=
  ((((State.creation s.params).setProfile s.profile).setAccs s.accCpu s.accTimers s.accDisplay).setDraws
    s.draws).setPending s.pending

/-! Fetch (R82). -/

/-- `MemRead(pc, 2)`: the word at `pc`, big-endian; none when `pc + 1 > 0xFFF`. -/
def State.fetch (s : State) : Option Word :=
  if s.pc.toNat + 1 > topAddress then none
  else some (wordOfBytes (s.byteAt s.pc.toNat) (s.byteAt (s.pc.toNat + 1)))

/-- A word stored at `a`, in fetch order. -/
def State.placeWord (a : Nat) (w : Word) (s : State) : State := s.store a [highByte w, lowByte w]

end Sys2Proof.Machine
end

