-- ==== Sys2Proof/Machine/Operands.lean ====
section
/-! DEFINITION. Every operand form: the quirk switches, the shifted operand, the offset register of `JP V0`,
immediates, glyph addresses, decimal digits, the logical screen and the geometry of a sprite. -/

namespace Sys2Proof.Machine

/-- The fields of `Q` (R26). -/
structure Quirks where
  shift : Bool
  loadstore : Bool
  clip : Bool
  jump : Bool
  logic : Bool
  vblank : Bool
  /-- Advisory; nothing in the core reads it. -/
  maxRom : Nat
deriving DecidableEq, Repr

/-- The table of R26. -/
def Profile.quirks (p : Profile) : Quirks :=
  match p with
  | .chip8 => ⟨false, false, true, false, true, true, 3232⟩
  | .schip => ⟨true, true, true, true, false, false, 3583⟩
  | .xo => ⟨false, false, false, false, false, false, 65024⟩

/-- `Q`, the active profile's switches. -/
def State.quirks (s : State) : Quirks := s.profile.quirks

/-- `zext_16(nnn)` (R62). -/
def zext16 (nnn : Imm12) : Word := nnn.setWidth 16

/-- `zext_16(b)` of a byte (R137). -/
def byteToWord (b : Byte) : Word := b.setWidth 16

/-- The value a shift works on: `Q.shift ? V[x] : V[y]` (R123, R125). -/
def State.shiftSource (s : State) (x y : RegIx) : Byte := if s.quirks.shift then s.getV x else s.getV y

/-- The offset of `JP V0,nnn`: `Q.jump ? V[x] : V[0]`, `x` the top nibble of `nnn` (R109). -/
def State.jumpOffset (s : State) (nnn : Imm12) : Byte :=
  if s.quirks.jump then s.getV ⟨nnn.toNat / 256 % 16, Nat.mod_lt _ (by decide)⟩ else s.getV 0

/-- `5 * zext_16(V[x])` (R138). -/
def glyphAddress (b : Byte) : Word := BitVec.ofNat 16 (fontStride * b.toNat)

/-- `BIGFONT_BASE + 10 * zext_16(V[x])` (R139). -/
def bigGlyphAddress (b : Byte) : Word := BitVec.ofNat 16 (bigFontBase + bigFontStride * b.toNat)

/-- Decimal hundreds, tens and ones (R140). -/
def decimalDigits (b : Byte) : List Byte :=
  [BitVec.ofNat 8 (b.toNat / 100), BitVec.ofNat 8 (b.toNat / 10 % 10), BitVec.ofNat 8 (b.toNat % 10)]

/-- `I` after a bulk transfer: advanced by `x + 1` modulo 65536 unless `Q.loadstore` (R141, R142). -/
def State.bulkIndex (s : State) (x : RegIx) : Word :=
  if s.quirks.loadstore then s.i else s.i + BitVec.ofNat 16 (x.val + 1)

/-! The logical screen (R23). -/

/-- `W = hires ? 128 : 64`. -/
def screenWidth (hires : Bool) : Nat := if hires then 128 else 64

/-- `H = hires ? 64 : 32`. -/
def screenHeight (hires : Bool) : Nat := if hires then 64 else 32

/-- The cell is in the logical region: rows 0 to `H-1`, columns 0 to `W-1` (R90). -/
def inRegion (hires : Bool) (r c : Nat) : Bool := r < screenHeight hires && c < screenWidth hires

/-- The new screen of a scroll: `f` inside the logical region, the old cell outside it (R90). -/
def Screen.mapRegion (old : Screen) (hires : Bool) (f : Nat → Nat → Bool) : Screen :=
  Screen.ofCells fun r c => if inRegion hires r c then f r c else old.cell r c

/-! Sprites (R150 to R153). -/

/-- Rows, columns and bytes per row of a sprite. -/
structure SpriteShape where
  rows : Nat
  cols : Nat
  bytesPerRow : Nat
deriving DecidableEq, Repr

/-- The choice of sub-algorithm: 16 by 16 only in high resolution with `n = 0` (R152). -/
def spriteShape (hires : Bool) (n : Fin 16) : SpriteShape :=
  if hires && n = 0 then ⟨16, 16, 2⟩ else ⟨n.val, 8, 1⟩

/-- Sprite pixel (`r`, `c`) is set: bit `7 - (c mod 8)` of byte `r*bpr + c div 8` (R151; log entry 8). -/
def State.spritePixel (s : State) (bytesPerRow r c : Nat) : Bool :=
  (s.byteAt (s.i.toNat + r * bytesPerRow + c / 8)).getLsbD (7 - c % 8)

/-- The row and column a sprite pixel lands on, none when it is discarded (R153). -/
def targetCell (clip hires : Bool) (x0 y0 r c : Nat) : Option (Nat × Nat) :=
  if clip then
    if screenWidth hires ≤ x0 + c ∨ screenHeight hires ≤ y0 + r then none else some (y0 + r, x0 + c)
  else some ((y0 + r) % screenHeight hires, (x0 + c) % screenWidth hires)

/-- The target of sprite pixel (`r`, `c`) of a `DRW Vx,Vy,n` in state `s`, if that pixel is set and kept. -/
def State.spriteHit (s : State) (x y : RegIx) (n : Fin 16) (r c : Nat) : Option (Nat × Nat) :=
  if s.spritePixel (spriteShape s.hires n).bytesPerRow r c then
    targetCell s.quirks.clip s.hires (s.getV x).toNat (s.getV y).toNat r c
  else none

/-- The cells a `DRW Vx,Vy,n` toggles, in the order of the two loops of R150. -/
def State.spriteHits (s : State) (x y : RegIx) (n : Fin 16) : List (Nat × Nat) :=
  (List.range (spriteShape s.hires n).rows).flatMap fun r =>
    (List.range (spriteShape s.hires n).cols).filterMap fun c => s.spriteHit x y n r c

/-- How many bytes of sprite a `DRW` with count `n` reads (R151). -/
def spriteBytes (hires : Bool) (n : Fin 16) : Nat := (spriteShape hires n).rows * (spriteShape hires n).bytesPerRow

end Sys2Proof.Machine
end

