-- ==== Sys2Proof/Machine/Flags.lean ====
section
/-! DEFINITION. Every value the spec puts into `VF` as a flag: "always with the value 0 or 1" (R15). -/

namespace Sys2Proof.Machine

/-- A condition as a flag value. -/
def flagOf (b : Bool) : Byte := if b then 1 else 0

/-- Carry out of `a + b`: 1 when the sum is above 255 (R121, R127). -/
def carryFlag (a b : Byte) : Byte := flagOf (decide (a.toNat + b.toNat > 255))

/-- Inverse of the borrow of `a - b`: 1 when `a >= b` (R122, R124, R127). -/
def noBorrowFlag (a b : Byte) : Byte := flagOf (decide (b.toNat ≤ a.toNat))

/-- The bit a right shift moves out, bit 0 (R123). -/
def shiftRightFlag (t : Byte) : Byte := flagOf (t.getLsbD 0)

/-- The bit a left shift moves out, bit 7 (R125). -/
def shiftLeftFlag (t : Byte) : Byte := flagOf (t.getLsbD 7)

/-- Result into `V[x]`, then the flag into `VF`: "flag last" (R114; log entry 13). -/
def State.setResultFlag (x : RegIx) (result flag : Byte) (s : State) : State :=
  (s.setV x result).setFlag flag

/-- Result of a logic operation into `V[x]`, then `VF <- 0` when `Q.logic` is on (R118 to R120). -/
def State.setLogicResult (x : RegIx) (result : Byte) (s : State) : State :=
  if s.quirks.logic then (s.setV x result).setFlag 0 else s.setV x result

/-- Toggle one cell and remember whether it was lit (R154). -/
def plotCell (acc : Screen × Bool) (cell : Nat × Nat) : Screen × Bool :=
  (acc.1.toggle cell.1 cell.2, acc.2 || acc.1.cell cell.1 cell.2)

/-- The screen and the collision after all cells are toggled (R150, R154). -/
def plotCells (scr : Screen) (cells : List (Nat × Nat)) : Screen × Bool := cells.foldl plotCell (scr, false)

end Sys2Proof.Machine
end

