-- ==== Sys2Proof/Machine/Alu.lean ====
section
/-! DEFINITION. Register load, arithmetic, logic, shift and random (spec/43_alu.md). Both operands are read from
the state before any write (R114). -/

namespace Sys2Proof.Machine

/-- `LD Vx,nn` (R115). -/
def execLdVxNn (x : RegIx) (nn : Byte) (s : State) : Host.Outcome State Fault Refusal :=
  .next (s.advance.setV x nn)

/-- `ADD Vx,nn`: modulo 256, no flag (R116). -/
def execAddVxNn (x : RegIx) (nn : Byte) (s : State) : Host.Outcome State Fault Refusal :=
  .next (s.advance.setV x (s.getV x + nn))

/-- `LD Vx,Vy` (R117). -/
def execLdVxVy (x y : RegIx) (s : State) : Host.Outcome State Fault Refusal :=
  .next (s.advance.setV x (s.getV y))

/-- `OR Vx,Vy` (R118). -/
def execOrVxVy (x y : RegIx) (s : State) : Host.Outcome State Fault Refusal :=
  .next (s.advance.setLogicResult x (s.getV x ||| s.getV y))

/-- `AND Vx,Vy` (R119). -/
def execAndVxVy (x y : RegIx) (s : State) : Host.Outcome State Fault Refusal :=
  .next (s.advance.setLogicResult x (s.getV x &&& s.getV y))

/-- `XOR Vx,Vy` (R120). -/
def execXorVxVy (x y : RegIx) (s : State) : Host.Outcome State Fault Refusal :=
  .next (s.advance.setLogicResult x (s.getV x ^^^ s.getV y))

/-- `ADD Vx,Vy` with carry out (R121). -/
def execAddVxVy (x y : RegIx) (s : State) : Host.Outcome State Fault Refusal :=
  .next (s.advance.setResultFlag x (s.getV x + s.getV y) (carryFlag (s.getV x) (s.getV y)))

/-- `SUB Vx,Vy`, `Vx - Vy` (R122). -/
def execSubVxVy (x y : RegIx) (s : State) : Host.Outcome State Fault Refusal :=
  .next (s.advance.setResultFlag x (s.getV x - s.getV y) (noBorrowFlag (s.getV x) (s.getV y)))

/-- `SHR Vx,Vy` by one (R123; log entry 7). -/
def execShrVxVy (x y : RegIx) (s : State) : Host.Outcome State Fault Refusal :=
  .next (s.advance.setResultFlag x (s.shiftSource x y >>> 1) (shiftRightFlag (s.shiftSource x y)))

/-- `SUBN Vx,Vy`, `Vy - Vx` (R124; log entry 7). -/
def execSubnVxVy (x y : RegIx) (s : State) : Host.Outcome State Fault Refusal :=
  .next (s.advance.setResultFlag x (s.getV y - s.getV x) (noBorrowFlag (s.getV y) (s.getV x)))

/-- `SHL Vx,Vy` by one (R125; log entry 7). -/
def execShlVxVy (x y : RegIx) (s : State) : Host.Outcome State Fault Refusal :=
  .next (s.advance.setResultFlag x (s.shiftSource x y <<< 1) (shiftLeftFlag (s.shiftSource x y)))

/-- `RND Vx,nn`: a fresh free byte under the mask (R126; log entry 2). -/
def execRnd (x : RegIx) (nn : Byte) (s : State) : Host.Outcome State Fault Refusal :=
  .next ((s.advance.setV x (Config.freeByte s.draws &&& nn)).setDraws (s.draws + 1))

end Sys2Proof.Machine
end

