-- ==== Sys2Proof/Machine/Control.lean ====
section
/-! DEFINITION. The control-transfer family (spec/42_control_flow.md). -/

namespace Sys2Proof.Machine

/-- `RET`: `OutOfRange` when no call is outstanding, else `pc` from the top of the stack (R101). -/
def execRet (s : State) : Host.Outcome State Fault Refusal :=
  if h : 0 < s.sp.val then .next (s.pop h) else raiseOutOfRange s

/-- `JP nnn` (R102). -/
def execJp (nnn : Imm12) (s : State) : Host.Outcome State Fault Refusal := .next (s.setPc (zext16 nnn))

/-- `CALL nnn`: pushes the address after the call; `OutOfRange` when 16 are held (R103). -/
def execCall (nnn : Imm12) (s : State) : Host.Outcome State Fault Refusal :=
  if h : s.sp.val < 16 then .next ((s.advance.push h).setPc (zext16 nnn)) else raiseOutOfRange s

/-- `SE Vx,nn` (R104). -/
def execSeVxNn (x : RegIx) (nn : Byte) (s : State) : Host.Outcome State Fault Refusal :=
  .next (s.advance.skipIf (s.getV x == nn))

/-- `SNE Vx,nn` (R105). -/
def execSneVxNn (x : RegIx) (nn : Byte) (s : State) : Host.Outcome State Fault Refusal :=
  .next (s.advance.skipIf (s.getV x != nn))

/-- `SE Vx,Vy` (R106). -/
def execSeVxVy (x y : RegIx) (s : State) : Host.Outcome State Fault Refusal :=
  .next (s.advance.skipIf (s.getV x == s.getV y))

/-- `SNE Vx,Vy` (R107). -/
def execSneVxVy (x y : RegIx) (s : State) : Host.Outcome State Fault Refusal :=
  .next (s.advance.skipIf (s.getV x != s.getV y))

/-- `JP V0,nnn`: the sum is not reduced modulo 4096 (R109). -/
def execJpV0 (nnn : Imm12) (s : State) : Host.Outcome State Fault Refusal :=
  .next (s.setPc (zext16 nnn + byteToWord (s.jumpOffset nnn)))

end Sys2Proof.Machine
end

