-- ==== Sys2Proof/Machine/Draw.lean ====
section
/-! DEFINITION. The draw instruction (spec/45_draw.md). -/

namespace Sys2Proof.Machine

/-- `DRW Vx,Vy,n` (R150): every sprite byte is checked first; coordinates, sprite and screen are read from the
state before any write (R155); then the screen, `VF` and, under `Q.vblank`, the latch (R156). -/
def execDrw (x y : RegIx) (n : Fin 16) (s : State) : Host.Outcome State Fault Refusal :=
  if inMemory s.i.toNat (spriteBytes s.hires n) then
    .next (((s.advance.setScreen (plotCells s.screen (s.spriteHits x y n)).1).setFlag
      (flagOf (plotCells s.screen (s.spriteHits x y n)).2)).setLatch (s.vblankWait || s.quirks.vblank))
  else raiseOutOfRange s

end Sys2Proof.Machine
end

