-- ==== Sys2Proof/Machine/IndexMemory.lean ====
section
/-! DEFINITION. Index register, memory and flag-register transfers (spec/44_index_memory.md). The range check on
the last address stands before any write (R135, R173). -/

namespace Sys2Proof.Machine

/-- `LD I,nnn` (R136). -/
def execLdINnn (nnn : Imm12) (s : State) : Host.Outcome State Fault Refusal :=
  .next (s.advance.setI (zext16 nnn))

/-- `ADD I,Vx`: modulo 65536, no flag (R137). -/
def execAddIVx (x : RegIx) (s : State) : Host.Outcome State Fault Refusal :=
  .next (s.advance.setI (s.i + byteToWord (s.getV x)))

/-- `LD F,Vx`: the whole byte, unmasked (R138; log entry 16). -/
def execLdFVx (x : RegIx) (s : State) : Host.Outcome State Fault Refusal :=
  .next (s.advance.setI (glyphAddress (s.getV x)))

/-- `LD HF,Vx`: the whole byte, unmasked (R139; log entries 6, 16). -/
def execLdHfVx (x : RegIx) (s : State) : Host.Outcome State Fault Refusal :=
  .next (s.advance.setI (bigGlyphAddress (s.getV x)))

/-- `LD B,Vx`: decimal digits at `I`, `I+1`, `I+2` (R140). -/
def execLdBVx (x : RegIx) (s : State) : Host.Outcome State Fault Refusal :=
  if inMemory s.i.toNat 3 then
    .next (s.advance.store s.i.toNat (decimalDigits (s.getV x)))
  else raiseOutOfRange s

/-- `LD [I],Vx`: `V0..Vx` to memory at `I` (R141). -/
def execLdMemVx (x : RegIx) (s : State) : Host.Outcome State Fault Refusal :=
  if inMemory s.i.toNat (x.val + 1) then
    .next ((s.advance.store s.i.toNat (s.regsUpTo x)).setI (s.bulkIndex x))
  else raiseOutOfRange s

/-- `LD Vx,[I]`: `V0..Vx` from memory at `I` (R142). -/
def execLdVxMem (x : RegIx) (s : State) : Host.Outcome State Fault Refusal :=
  if inMemory s.i.toNat (x.val + 1) then
    .next ((s.advance.setRegsUpTo x fun k => s.byteAt (s.i.toNat + k.val)).setI (s.bulkIndex x))
  else raiseOutOfRange s

/-- `LD R,Vx`: `V0..Vx` to `rpl[0..x]` (R143). -/
def execLdRVx (x : RegIx) (s : State) : Host.Outcome State Fault Refusal :=
  .next (s.advance.setRpl (Vector.ofFn fun k => if k ≤ x then s.getV k else s.rpl[k.val]))

/-- `LD Vx,R`: `V0..Vx` from `rpl[0..x]` (R144). -/
def execLdVxR (x : RegIx) (s : State) : Host.Outcome State Fault Refusal :=
  .next (s.advance.setRegsUpTo x fun k => s.rpl[k.val])

end Sys2Proof.Machine
end

