-- ==== Sys2Proof/Machine/KeypadTimers.lean ====
section
/-! DEFINITION. Keypad and timer instructions (spec/46_keypad_timers.md). -/

namespace Sys2Proof.Machine

/-- `SKP Vx`: the whole byte is the key number; above 15 it is `OutOfRange` (R161). -/
def execSkp (x : RegIx) (s : State) : Host.Outcome State Fault Refusal :=
  if h : (s.getV x).toNat < 16 then .next (s.advance.skipIf s.keys[(s.getV x).toNat]) else raiseOutOfRange s

/-- `SKNP Vx` (R162). -/
def execSknp (x : RegIx) (s : State) : Host.Outcome State Fault Refusal :=
  if h : (s.getV x).toNat < 16 then .next (s.advance.skipIf (!s.keys[(s.getV x).toNat])) else raiseOutOfRange s

/-- `LD Vx,DT` (R163). -/
def execLdVxDt (x : RegIx) (s : State) : Host.Outcome State Fault Refusal :=
  .next (s.advance.setV x s.delay)

/-- `LD Vx,K`: with no key down `pc` goes back to the instruction; else the number of some pressed key, freely
chosen (R164; log entry 3). -/
def execLdVxK (x : RegIx) (s : State) : Host.Outcome State Fault Refusal :=
  match s.pressedKeys with
  | [] => .next s.advance.rewind
  | k :: rest =>
    let key := (k :: rest).getD (Config.freeChoice s.draws % (rest.length + 1)) k
    .next ((s.advance.setV x (BitVec.ofNat 8 key.val)).setDraws (s.draws + 1))

/-- `LD DT,Vx` (R165). -/
def execLdDtVx (x : RegIx) (s : State) : Host.Outcome State Fault Refusal :=
  .next (s.advance.setDelay (s.getV x))

/-- `LD ST,Vx` (R166). -/
def execLdStVx (x : RegIx) (s : State) : Host.Outcome State Fault Refusal :=
  .next (s.advance.setSound (s.getV x))

end Sys2Proof.Machine
end

