-- ==== Sys2Proof/Machine/ScreenControl.lean ====
section
/-! DEFINITION. The screen-control family (spec/41_screen_control.md). Every meaning starts from the state before
fetch: `advance` is the `pc <- pc + 2` of fetch. -/

namespace Sys2Proof.Machine

/-- `CLS`: the entire buffer, independent of the mode (R91). -/
def execCls (s : State) : Host.Outcome State Fault Refusal :=
  .next (s.advance.setScreen (Screen.ofCells fun _ _ => false))

/-- `SCD n`: down by `n` rows inside the logical region (R92). -/
def execScd (n : Fin 16) (s : State) : Host.Outcome State Fault Refusal :=
  .next (s.advance.setScreen (s.screen.mapRegion s.hires fun r c =>
    if n.val ≤ r then s.screen.cell (r - n.val) c else false))

/-- `SCR`: right by 4 columns inside the logical region (R93). -/
def execScr (s : State) : Host.Outcome State Fault Refusal :=
  .next (s.advance.setScreen (s.screen.mapRegion s.hires fun r c =>
    if 4 ≤ c then s.screen.cell r (c - 4) else false))

/-- `SCL`: left by 4 columns inside the logical region (R94). -/
def execScl (s : State) : Host.Outcome State Fault Refusal :=
  .next (s.advance.setScreen (s.screen.mapRegion s.hires fun r c =>
    if c + 4 ≤ screenWidth s.hires - 1 then s.screen.cell r (c + 4) else false))

/-- `LOW`: `hires <- false`; the screen is not cleared (R95). -/
def execLow (s : State) : Host.Outcome State Fault Refusal := .next (s.advance.setHires false)

/-- `HIGH`: `hires <- true`; the screen is not cleared (R96). -/
def execHigh (s : State) : Host.Outcome State Fault Refusal := .next (s.advance.setHires true)

/-- `SYS nnn`: nothing but the advance; `nnn` is ignored (R97). -/
def execSys (_nnn : Imm12) (s : State) : Host.Outcome State Fault Refusal := .next s.advance

end Sys2Proof.Machine
end

