-- ==== Sys2Proof/Machine/HostOps.lean ====
section
/-! DEFINITION. The host's operations other than `cpu_step` (spec/60_exceptions.md, spec/70_reset_and_hazards.md).
Each is one indivisible transition; none consults `fault` (R174). A call that the interface refuses changes
nothing (R180, R190, R203). `reset` is `hostReset` in Ops.lean. -/

namespace Sys2Proof.Machine

/-- `load(image)`: the bytes to 0x200 upward, nothing else; more than 3584 bytes are refused (R203). -/
def hostLoad (image : List Byte) (s : State) : State :=
  if image.length ≤ maxImage then s.store programBase image else s

/-- `set_key(k, pressed)`; `k` above 15 is refused (R180). -/
def hostSetKey (k : Nat) (pressed : Bool) (s : State) : State :=
  if h : k < 16 then s.setKeys (s.keys.set k pressed) else s

/-- The bundle a name selects: exact match, "any other value which falls back to `chip8` defaults" (R181). -/
def Profile.ofName (name : String) : Profile :=
  if name = "schip" then .schip else if name = "xo" then .xo else .chip8

/-- `select_profile(name)`: only `Q` changes (R181). -/
def hostSelectProfile (name : String) (s : State) : State := s.setProfile (Profile.ofName name)

/-- A timer's next value: one less, never below zero (R185). -/
def timerDown (b : Byte) : Byte := if b = 0 then 0 else b - 1

/-- `timer_tick`: clears the latch in every profile, then decrements the two timers (R185). -/
def hostTimerTick (s : State) : State :=
  ((s.setLatch false).setDelay (timerDown s.delay)).setSound (timerDown s.sound)

/-- `display_tick` changes no state (R187). -/
def hostDisplayTick (s : State) : State := s

/-- What `display_tick` hands to the display consumer: the full grid and the resolution flag (R187). -/
def displayOutput (s : State) : Screen × Bool := (s.screen, s.hires)

/-! The rate scheduler (R190 to R192). -/

/-- An accumulator after `e` seconds at `f` Hz, before its whole part is taken: `acc + e * F`. -/
def accTotal (acc e f : Rat) : Rat := acc + e * f

/-- `n[s] <- floor(acc[s])`, the ticks due. -/
def ticksDue (acc e f : Rat) : Nat := ⌊accTotal acc e f⌋.toNat

/-- `acc[s] <- acc[s] - n[s]`, the fraction kept. -/
def accAfter (acc e f : Rat) : Rat := accTotal acc e f - (ticksDue acc e f : Rat)

/-- The three records in the order CPU, timers, display (R190). -/
structure TickCounts where
  cpu : Nat
  timers : Nat
  display : Nat
deriving DecidableEq, Repr

/-- The counts `schedule(prev, now)` returns; none when `now < prev`, which is refused (R190). -/
def scheduleCounts (prev now : Rat) (s : State) : Option TickCounts :=
  if prev ≤ now then
    some ⟨ticksDue s.accCpu (now - prev) s.params.freqCpu, ticksDue s.accTimers (now - prev) s.params.freqTimers,
      ticksDue s.accDisplay (now - prev) s.params.freqDisplay⟩
  else none

/-- `schedule(prev, now)` on the state: only the accumulators change (R190). -/
def hostSchedule (prev now : Rat) (s : State) : State :=
  if prev ≤ now then
    s.setAccs (accAfter s.accCpu (now - prev) s.params.freqCpu) (accAfter s.accTimers (now - prev) s.params.freqTimers)
      (accAfter s.accDisplay (now - prev) s.params.freqDisplay)
  else s

/-- The frame procedure: `schedule`, then its counts before any other call of the host (R193). On a machine already
faulted it schedules all the same: DESIGN CHOICE (log entry 31). -/
def hostFrame (prev now : Rat) (s : State) : State :=
  match scheduleCounts prev now s with
  | some n => (hostSchedule prev now s).setPending (.frameRest n.cpu n.timers n.display :: s.pending)
  | none => s

/-- The integer realisation of one accumulator: ticks due and the remainder kept, for a reference clock of
`clkHz` ticks a second, `d` of them elapsed (R192). -/
def scheduleInteger (clkHz num d f : Nat) : Nat × Nat := ((num + d * f) / clkHz, (num + d * f) % clkHz)

end Sys2Proof.Machine
end

