-- ==== Sys2Proof/Machine/Cycle.lean ====
section
/-! DEFINITION. `cpu_step` (spec/40_step_cycle.md) and one call of the host. -/

namespace Sys2Proof.Machine

/-- The suspension test: the latch is set and the active profile's v-blank quirk is on (R81). -/
def State.stalled (s : State) : Bool := s.vblankWait && s.quirks.vblank

/-- What a call that ran an instruction reports: executed, or faulted with the fault it recorded (R85). -/
def CpuResult.ofExec (o : Host.Outcome State Fault Refusal) : CpuResult :=
  match o with
  | .next t =>
    match t.fault with
    | none => .executed
    | some f => .faulted f
  | .fault _ | .refused _ => .noTransition

/-- `cpu_step` (R80), in the priority of R175: dead, stalled, fetch, decode, execute; which of the four results of
R85 the call has, and its transition. A stalled call changes nothing; a call on a dead machine has no transition. -/
def cpuStepWithResult (s : State) : CpuResult × Host.Outcome State Fault Refusal :=
  match s.fault with
  | some f => (.noTransition, .fault (.dead f))
  | none =>
    if s.stalled then (.stalled, .next s)
    else
      match s.fetch with
      | none => (.faulted .outOfRange, raiseOutOfRange s)
      | some w =>
        match decode w with
        | .ok i => (CpuResult.ofExec (exec i s), exec i s)
        | .error _ => (.faulted (.unknownOpcode w), .next (takeFault (.unknownOpcode w) s))

/-- The transition of `cpu_step`. -/
def cpuStep (s : State) : Host.Outcome State Fault Refusal := (cpuStepWithResult s).2

/-- The result `cpu_step` hands back, as an output: a state does not show whether the step that led to it was stalled
or executed (R85). -/
def cpuStepResult (s : State) : CpuResult := (cpuStepWithResult s).1

/-- The next call of a frame in progress: CPU steps, then timer ticks, then display ticks, the rest of the frame
standing before the host's other calls. Once a CPU step has faulted "the remaining counts of the frame are not
executed" (R193). A frame called on a machine whose fault was set before is treated alike, which the spec does not
say: DESIGN CHOICE, all its counts are dropped, the timer and display ticks too, also when it has no CPU step (log
entry 31). -/
def hostFrameRest (cpu timers display : Nat) (s : State) : Host.Outcome State Fault Refusal :=
  if s.fault ≠ none then .next s
  else
    match cpu, timers, display with
    | c + 1, t, d => cpuStep (s.setPending (.frameRest c t d :: s.pending))
    | 0, t + 1, d => .next (hostTimerTick (s.setPending (.frameRest 0 t d :: s.pending)))
    | 0, 0, d + 1 => .next (hostDisplayTick (s.setPending (.frameRest 0 0 d :: s.pending)))
    | 0, 0, 0 => .next s

/-- One call of the host (R6). -/
def hostCall (op : HostOp) (s : State) : Host.Outcome State Fault Refusal :=
  match op with
  | .reset => .next (hostReset s)
  | .load image => .next (hostLoad image s)
  | .setKey k pressed => .next (hostSetKey k pressed s)
  | .selectProfile name => .next (hostSelectProfile name s)
  | .cpuStep => cpuStep s
  | .timerTick => .next (hostTimerTick s)
  | .displayTick => .next (hostDisplayTick s)
  | .schedule prev now => .next (hostSchedule prev now s)
  | .frame prev now => .next (hostFrame prev now s)
  | .frameRest cpu timers display => hostFrameRest cpu timers display s

/-- The state in which the next `cpu_step` fetches `w` and runs it: nothing of the host's is pending, no fault
stands, nothing stalls, and the word is in memory at `pc` (at 0x200 when `pc` cannot be fetched from). -/
def State.readyToRun (s : State) (w : Word) : State :=
  let s := ((s.setPending []).setFault none).setLatch false
  let s := if s.pc.toNat + 1 > topAddress then s.setPc (BitVec.ofNat 16 programBase) else s
  s.placeWord s.pc.toNat w

end Sys2Proof.Machine
end

