-- ==== Sys2Proof/Machine/Step.lean ====
section
/-! DEFINITION. One step of the machine: the host's oldest pending call, or `cpu_step` when it has none (R6,
R177; log entry 1). -/

namespace Sys2Proof.Machine

/-- One atomic operation on the state. -/
def step (s : State) : Host.Outcome State Fault Refusal :=
  match s.pending with
  | [] => cpuStep s
  | op :: rest => hostCall op (s.setPending rest)

/-- `s` with the opcode-table word `w` where `step` fetches its next instruction (log entry 23). -/
def State.withFetchWord (s : State) (nbits w : Nat) : State :=
  s.readyToRun (BitVec.ofNat 16 (w % 2 ^ nbits))

end Sys2Proof.Machine
end

