-- ==== Sys2Proof/Safety.lean ====
section
/-! DEFINITION. The words the claims use: what a safe state is, which part of the state an instruction may write,
what it keeps, when a step faults, where a sprite pixel lands, and the invariant of the machine. -/

namespace Sys2Proof.Machine

/-- "A faulted state is never a successful end of a run" (R174). -/
def State.safe (s : State) : Prop := s.fault = none

/-- No fault stands and nothing stalls: a `cpu_step` fetches. -/
def State.running (s : State) : Prop := s.fault = none ∧ s.stalled = false

/-- The next call of the host is a `cpu_step`, and `u` is the state it works on, the call taken off the list: the call
made when none is pending, a call by name, or the next of a frame in progress. -/
def State.callsCpuStep (s u : State) : Prop :=
  (s.pending = [] ∧ u = s) ∨
  (∃ rest, s.pending = .cpuStep :: rest ∧ u = { s with pending := rest }) ∨
  (∃ cpu timers display rest, s.pending = .frameRest (cpu + 1) timers display :: rest ∧
    u = { s with pending := .frameRest cpu timers display :: rest })

/-- The word at `pc` in fetch order (R82). -/
def State.wordAtPc (s : State) : Word :=
  wordOfBytes (s.byteAt s.pc.toNat) (s.byteAt (s.pc.toNat + 1))

/-! The end of a run, which "A model must define" itself (R86, D34; log entry 32). -/

/-- `pc` points at a jump to itself. -/
def State.atSelfJump (s : State) : Bool :=
  match s.fetch with
  | some w => decode w = .ok (.jp (BitVec.ofNat 12 s.pc.toNat))
  | none => false

/-- The run ended well: no fault, and the program idles at a self-jump. -/
def State.finished (s : State) : Bool := s.fault.isNone && s.atSelfJump

/-- The run has ended: well, or in a fault. -/
def State.ended (s : State) : Bool := s.finished || s.fault.isSome

/-- At most `n` steps, fewer when the run ends before. -/
def runToEnd (n : Nat) (s : State) : Host.Outcome State Fault Refusal :=
  match n with
  | 0 => .next s
  | n + 1 =>
    if s.ended then .next s
    else
      match step s with
      | .next t => runToEnd n t
      | .fault r => .fault r
      | .refused r => .refused r

/-! Frames. -/

/-- The pieces of the state other than `pc`, as the access table names them (R33), the parameters and the model's own two. -/
inductive Part where
  | mem | regs | index | stack | rpl | delay | sound | screen | hires | latch | keys | profile | accs | fault
  | params | draws | pending
deriving DecidableEq, Repr

/-- `t` has the piece as `s` has it. -/
def Part.same (p : Part) (s t : State) : Prop :=
  match p with
  | .mem => ∀ a, t.byteAt a = s.byteAt a
  | .regs => ∀ k, t.getV k = s.getV k
  | .index => t.i = s.i
  | .stack => t.sp = s.sp ∧ t.stack = s.stack
  | .rpl => t.rpl = s.rpl
  | .delay => t.delay = s.delay
  | .sound => t.sound = s.sound
  | .screen => ∀ r c, t.screen.cell r c = s.screen.cell r c
  | .hires => t.hires = s.hires
  | .latch => t.vblankWait = s.vblankWait
  | .keys => t.keys = s.keys
  | .profile => t.profile = s.profile
  | .accs => t.accCpu = s.accCpu ∧ t.accTimers = s.accTimers ∧ t.accDisplay = s.accDisplay
  | .fault => t.fault = s.fault
  | .params => t.params = s.params
  | .draws => t.draws = s.draws
  | .pending => t.pending = s.pending

/-- Every piece of the state outside `parts` is unchanged; `pc` is not spoken of. -/
def Unchanged (parts : List Part) (s t : State) : Prop := ∀ p, p ∉ parts → p.same s t

/-- `pc` stands past the instruction, and every piece of the state outside `parts` is unchanged. -/
def Straight (parts : List Part) (s t : State) : Prop := t.pc = s.pc + 2 ∧ Unchanged parts s t

/-- Every register outside the list is unchanged. -/
def RegsKept (except : List RegIx) (s t : State) : Prop := ∀ k, k ∉ except → t.getV k = s.getV k

/-- Every byte of memory outside the `n` bytes at `a` reads as before. -/
def BytesKept (a n : Nat) (s t : State) : Prop :=
  ∀ b, ¬(a ≤ b ∧ b < a + n) → t.byteAt b = s.byteAt b

/-- A straight-line instruction whose only write is `V[x]`, which ends as `r`. -/
def WritesReg (x : RegIx) (r : Byte) (s t : State) : Prop :=
  t.getV x = r ∧ RegsKept [x] s t ∧ Straight [.regs] s t

/-- A straight-line instruction that writes its result to `V[x]` and then its flag to `VF`: the flag wins when
`x` is 0xF (R114). -/
def WritesResultAndFlag (x : RegIx) (r f : Nat) (s t : State) : Prop :=
  (t.getV 15).toNat = f ∧ (x ≠ 15 → (t.getV x).toNat = r) ∧ RegsKept [x, 15] s t ∧ Straight [.regs] s t

end Sys2Proof.Machine

namespace Sys2Proof

open Sys2Proof.Machine

/-- The pieces of the state an instruction may write when it does not fault: the rows of R33. -/
def Instr.writes (i : Instr) : List Part :=
  match i with
  | .cls | .scd _ | .scr | .scl => [.screen]
  | .ret | .call _ => [.stack]
  | .low | .high => [.hires]
  | .sys _ | .jp _ | .seVxNn _ _ | .sneVxNn _ _ | .seVxVy _ _ | .sneVxVy _ _ | .jpV0 _ | .skp _ | .sknp _ => []
  | .ldVxNn _ _ | .addVxNn _ _ | .ldVxVy _ _ | .orVxVy _ _ | .andVxVy _ _ | .xorVxVy _ _ => [.regs]
  | .addVxVy _ _ | .subVxVy _ _ | .shrVxVy _ _ | .subnVxVy _ _ | .shlVxVy _ _ | .ldVxDt _ => [.regs]
  | .rnd _ _ | .ldVxK _ => [.regs, .draws]
  | .ldINnn _ | .addIVx _ | .ldFVx _ | .ldHfVx _ => [.index]
  | .drw _ _ _ => [.screen, .regs, .latch]
  | .ldDtVx _ => [.delay]
  | .ldStVx _ => [.sound]
  | .ldBVx _ => [.mem]
  | .ldMemVx _ => [.mem, .index]
  | .ldVxMem _ => [.regs, .index]
  | .ldRVx _ => [.rpl]
  | .ldVxR _ => [.regs]

/-- The instruction may change `VF`: it writes the flag as a side effect, names `VF` as its destination, or is a
bulk load that reaches it (R15). -/
def Instr.mayWriteVf (i : Instr) (s : State) : Prop :=
  match i with
  | .orVxVy x _ | .andVxVy x _ | .xorVxVy x _ => s.quirks.logic = true ∨ x = 15
  | .addVxVy _ _ | .subVxVy _ _ | .shrVxVy _ _ | .subnVxVy _ _ | .shlVxVy _ _ | .drw _ _ _ => True
  | .ldVxNn x _ | .addVxNn x _ | .ldVxVy x _ | .rnd x _ | .ldVxDt x | .ldVxK x => x = 15
  | .ldVxMem x | .ldVxR x => x = 15
  | .cls | .ret | .scd _ | .scr | .scl | .low | .high | .sys _ | .jp _ | .call _ => False
  | .seVxNn _ _ | .sneVxNn _ _ | .seVxVy _ _ | .sneVxVy _ _ | .ldINnn _ | .jpV0 _ | .skp _ | .sknp _ => False
  | .ldDtVx _ | .ldStVx _ | .addIVx _ | .ldFVx _ | .ldHfVx _ | .ldBVx _ | .ldMemVx _ | .ldRVx _ => False

/-! Faults. -/

/-- The condition of R172's table under which the instruction raises `OutOfRange`. -/
def Instr.outOfRange (i : Instr) (s : State) : Prop :=
  match i with
  | .ret => s.sp.val = 0
  | .call _ => s.sp.val = 16
  | .drw _ _ n =>
    if s.hires = true ∧ n = 0 then s.i.toNat + 32 - 1 > 0xFFF else n.val > 0 ∧ s.i.toNat + n.val - 1 > 0xFFF
  | .ldBVx _ => s.i.toNat + 2 > 0xFFF
  | .ldMemVx x | .ldVxMem x => s.i.toNat + x.val > 0xFFF
  | .skp x | .sknp x => (s.getV x).toNat > 15
  | .cls | .scd _ | .scr | .scl | .low | .high | .sys _ | .jp _ => False
  | .seVxNn _ _ | .sneVxNn _ _ | .seVxVy _ _ | .sneVxVy _ _ | .jpV0 _ => False
  | .ldVxNn _ _ | .addVxNn _ _ | .ldVxVy _ _ | .orVxVy _ _ | .andVxVy _ _ | .xorVxVy _ _ => False
  | .addVxVy _ _ | .subVxVy _ _ | .shrVxVy _ _ | .subnVxVy _ _ | .shlVxVy _ _ | .rnd _ _ => False
  | .ldINnn _ | .addIVx _ | .ldFVx _ | .ldHfVx _ | .ldRVx _ | .ldVxR _ => False
  | .ldVxDt _ | .ldVxK _ | .ldDtVx _ | .ldStVx _ => False

end Sys2Proof

namespace Sys2Proof.Machine

/-! Sprites. -/

/-- Sprite pixel (row `p`, column `q`) of `DRW Vx,Vy,n` in state `s` exists, is set, is not discarded, and lands on
row `r`, column `c` of the screen (R151, R152, R153). -/
def State.spriteLands (s : State) (x y : RegIx) (n : Fin 16) (p q r c : Nat) : Prop :=
  let extended := s.hires = true ∧ n = 0
  let width := if s.hires then 128 else 64
  let height := if s.hires then 64 else 32
  let col := (s.getV x).toNat + q
  let row := (s.getV y).toNat + p
  (if extended then p < 16 ∧ q < 16 else p < n.val ∧ q < 8) ∧
  (s.byteAt (s.i.toNat + p * (if extended then 2 else 1) + q / 8)).getLsbD (7 - q % 8) = true ∧
  (if s.quirks.clip then col < width ∧ row < height ∧ r = row ∧ c = col
    else r = row % height ∧ c = col % width)

/-! The scheduler over a sequence of calls. -/

/-- Ticks emitted and fraction kept by one system at `f` Hz over calls with the given elapsed times (R190). -/
def scheduleRun (f acc : Rat) (elapsed : List Rat) : Nat × Rat :=
  match elapsed with
  | [] => (0, acc)
  | e :: rest =>
    let later := scheduleRun f (accAfter acc e f) rest
    (ticksDue acc e f + later.1, later.2)

/-! The invariant. -/

/-- An accumulator is a fraction of a tick: `0 <= acc < 1` (R28, R191). -/
def fraction (acc : Rat) : Prop := 0 ≤ acc ∧ acc < 1

/-- Memory keeps its canonical form; `pc` is at most 0x10FE and every return address at most 0x1000 (R17, R108);
the accumulators are fractions (R28); the parameters have values they can take. -/
def State.Inv (s : State) : Prop :=
  s.mem.wf s.params ∧ s.params.wf ∧ s.pc.toNat ≤ 0x10FE ∧ (∀ k : Fin 16, s.stack[k.val].toNat ≤ 0x1000) ∧
  fraction s.accCpu ∧ fraction s.accTimers ∧ fraction s.accDisplay

end Sys2Proof.Machine
end

