-- ==== Sys2Proof/Certificates/Slice0/Obligations.lean ====
section
/-! DEFINITION. The statements for the provers, in the order of OBLIGATIONS.json. -/

open Sys2Proof Sys2Proof.Machine

/-! ## Encoding -/

/-- Decoding the encoding of any well-formed instruction gives it back, as a word and as bytes in memory order with
whatever follows them (R60 to R66). The numbers of group 8 that R64 marks as general knowledge are log entry 7. -/
def Obligations.DecodeOfEncode : Prop :=
  ∀ i : Instr, i.wellFormed = true →
    decode (encode i) = .ok i ∧ ∀ rest, decodeBytes (encodeBytes i ++ rest) = .ok (i, rest)

/-- A word has at most one meaning: what the decoder answers is well formed and encodes to that word (R63, R69). -/
def Obligations.EncodeOfDecode : Prop :=
  ∀ (w : Word) (i : Instr), decode w = .ok i → i.wellFormed = true ∧ encode i = w

/-- "A word is decoded as the first row of the table in rule R66, in table order, whose fixed nibbles all match"
(R63); that decode is independent of the profile is the spec's inference D17 (log entry 22). -/
def Obligations.DecodeIsFirstMatchingRow : Prop :=
  ∀ w : Word, opcodeTable.find? (fun r => r.selects w) =
    match decode w with
    | .ok i => some i.row
    | .error _ => none

/-- The decoder refuses exactly the words of R67, each by its own name. That `5xyK` and `9xyK` are among them is the
spec's inference D18 (log entry 22). -/
def Obligations.IllegalWordsExact : Prop :=
  ∀ w : Word,
    (decode w = .error (.unknownOpcode w) ↔
      (w.toNat / 4096 = 5 ∧ w.toNat % 16 ≠ 0) ∨
      (w.toNat / 4096 = 8 ∧ w.toNat % 16 ∈ [0x8, 0x9, 0xA, 0xB, 0xC, 0xD, 0xF]) ∨
      (w.toNat / 4096 = 9 ∧ w.toNat % 16 ≠ 0) ∨
      (w.toNat / 4096 = 14 ∧ w.toNat % 256 ∉ [0x9E, 0xA1]) ∨
      (w.toNat / 4096 = 15 ∧
        w.toNat % 256 ∉ [0x07, 0x0A, 0x15, 0x18, 0x1E, 0x29, 0x30, 0x33, 0x55, 0x65, 0x75, 0x85])) ∧
    ∀ e, decode w = .error e → e = .unknownOpcode w

/-- One word of each family, written out from R66, decodes to the instruction it stands for. -/
def Obligations.WordsOfEachFamily : Prop :=
  decode 0b0000000011000011 = .ok (.scd 3) ∧
  decode 0b0000000100100011 = .ok (.sys 0x123) ∧
  decode 0b0010001000001000 = .ok (.call 0x208) ∧
  decode 0b1001000100100000 = .ok (.sneVxVy 1 2) ∧
  decode 0b1000000100100101 = .ok (.subVxVy 1 2) ∧
  decode 0b1100000100001111 = .ok (.rnd 1 0x0F) ∧
  decode 0b1111001001010101 = .ok (.ldMemVx 2) ∧
  decode 0b1101000100100101 = .ok (.drw 1 2 5) ∧
  decode 0b1110001010100001 = .ok (.sknp 2)

/-! ## The step -/

/-- A `cpu_step` on a running machine whose word at `pc` decodes to `i` takes exactly the step `exec i`, however the
call is made, and reports `Executed` when `i` raises nothing (R80, R82, R84, R85). -/
def Obligations.StepRunsDecodedInstruction : Prop :=
  ∀ (s u : State) (i : Instr), s.callsCpuStep u → s.fault = none →
    ¬(u.vblankWait = true ∧ u.quirks.vblank = true) → u.pc.toNat + 1 ≤ 0xFFF →
    decode (wordOfBytes (u.byteAt u.pc.toNat) (u.byteAt (u.pc.toNat + 1))) = .ok i →
    step s = exec i u ∧ ∀ t, exec i u = .next t → t.fault = none → cpuStepResult u = .executed

/-- A stalled call changes no state at all, whatever `pc` is, and reports `Stalled`; the latch does not stall under a
profile without the quirk: that step fetches (R81). The idle loop changes nothing either, but reports `Executed`
(R85, R86); that it ends the run is the model's own end predicate, which R86 and D34 ask for (log entry 32). -/
def Obligations.StalledStepChangesNothing : Prop :=
  ∀ s u : State, s.callsCpuStep u → s.fault = none →
    (u.vblankWait = true → u.quirks.vblank = true → step s = .next u ∧ cpuStepResult u = .stalled) ∧
    (u.vblankWait = true → u.quirks.vblank = false → ∀ i, u.fetch.map decode = some (.ok i) → step s = exec i u) ∧
    (u.finished = true → step s = .next u ∧ (u.stalled = false → cpuStepResult u = .executed))

/-- A running `cpu_step` faults before it executes anything in exactly two cases: the fetch passes the top of memory,
and the word matches no row. Each changes only `fault`, which the call reports, and the second records the word (R82,
R83, R85, R171, R173). That the fetch past the top faults is the spec's decision D3, that `pc` stays its decision D25
(log entries 12, 4). -/
def Obligations.FetchAndDecodeFaults : Prop :=
  ∀ s u : State, s.callsCpuStep u → u.running →
    (u.pc.toNat + 1 > 0xFFF → step s = .next { u with fault := some .outOfRange } ∧
      cpuStepResult u = .faulted .outOfRange) ∧
    (u.pc.toNat + 1 ≤ 0xFFF → ∀ e, decode u.wordAtPc = .error e →
      step s = .next { u with fault := some (.unknownOpcode u.wordAtPc) } ∧
        cpuStepResult u = .faulted (.unknownOpcode u.wordAtPc))

/-- While `fault` is set a `cpu_step` has no transition, and reports so; every other call of the host still answers a
next state and keeps the fault, and `reset` clears it (R85, R174). The spec marks this as its decision D25 (log entry
4); what a frame does on a faulted machine is the model's choice (log entry 31). -/
def Obligations.DeadUntilReset : Prop :=
  ∀ (s : State) (f : FaultStatus), s.fault = some f →
    cpuStepResult s = .noTransition ∧
    (s.pending = [] → step s = .fault (.dead f)) ∧
    (∀ rest, s.pending = .cpuStep :: rest → step s = .fault (.dead f)) ∧
    (∀ op rest, s.pending = op :: rest → op ≠ .cpuStep → op ≠ .reset → ∃ t, step s = .next t ∧ t.fault = some f) ∧
    (∀ rest, s.pending = .reset :: rest → ∃ t, step s = .next t ∧ t.fault = none)

/-- "When a `cpu_step` raises, the only state change is" the fault: precise, for every instruction, and reported as
`Faulted` (R85, R173; the spec's decision D25, log entry 4). -/
def Obligations.FaultingStepChangesOnlyFault : Prop :=
  ∀ (s u t : State) (f : FaultStatus), s.callsCpuStep u → s.fault = none → step s = .next t → t.fault = some f →
    t = { u with fault := some f } ∧ cpuStepResult u = .faulted f

/-- The complete list of causes of `OutOfRange` in a running `cpu_step` (R172; bounds checking is the spec's decision
D3, the key vector D19, log entries 12, 17). -/
def Obligations.OutOfRangeExactly : Prop :=
  ∀ s u : State, s.callsCpuStep u → u.running →
    ((∃ t, step s = .next t ∧ t.fault = some .outOfRange) ↔
      u.pc.toNat + 1 > 0xFFF ∨
      (u.pc.toNat + 1 ≤ 0xFFF ∧ ∃ i, decode u.wordAtPc = .ok i ∧ i.outOfRange u))

/-- No instruction is refused or stops the model: `exec` answers a next state for every instruction in every state,
and a step fails to answer one only when a `cpu_step` is called on a machine whose fault is set (R85, R174). That a
step which raises a fault answers a next state at all is the model's choice: R173 lets a model give it no successor
(the spec's decision D25, log entry 4). -/
def Obligations.EveryInstructionAnswersNext : Prop :=
  (∀ (i : Instr) (s : State), ∃ t, exec i s = .next t) ∧
  ∀ s : State, s.fault = none → ∃ t, step s = .next t

/-! ## Screen control -/

/-- `CLS` clears the whole buffer in either mode and changes nothing else (R91). -/
def Obligations.ClsClearsWholeBuffer : Prop :=
  ∀ s : State, ∃ t, exec .cls s = .next t ∧
    (∀ r c, t.screen.cell r c = false) ∧ Straight [.screen] s t

/-- `SCD n` moves the rows of the logical region down by `n` and clears the top `n`; cells outside the region do not
move (R92). The region is the spec's decision D16 (log entry 15). -/
def Obligations.ScdShiftsRowsDown : Prop :=
  ∀ (n : Fin 16) (s : State), ∃ t, exec (.scd n) s = .next t ∧
    (∀ r c, r < (if s.hires then 64 else 32) → c < (if s.hires then 128 else 64) →
      t.screen.cell r c = if n.val ≤ r then s.screen.cell (r - n.val) c else false) ∧
    (∀ r c, ¬(r < (if s.hires then 64 else 32) ∧ c < (if s.hires then 128 else 64)) →
      t.screen.cell r c = s.screen.cell r c) ∧
    Straight [.screen] s t

/-- `SCR` and `SCL` move the columns of the logical region by 4 and clear the 4 freed; nothing enters from outside
the region, nothing outside moves (R93, R94). The region is the spec's decision D16 (log entry 15). -/
def Obligations.ScrSclShiftColumns : Prop :=
  ∀ s : State,
    (∃ t, exec .scr s = .next t ∧
      (∀ r c, r < (if s.hires then 64 else 32) → c < (if s.hires then 128 else 64) →
        t.screen.cell r c = if 4 ≤ c then s.screen.cell r (c - 4) else false) ∧
      (∀ r c, ¬(r < (if s.hires then 64 else 32) ∧ c < (if s.hires then 128 else 64)) →
        t.screen.cell r c = s.screen.cell r c) ∧
      Straight [.screen] s t) ∧
    (∃ t, exec .scl s = .next t ∧
      (∀ r c, r < (if s.hires then 64 else 32) → c < (if s.hires then 128 else 64) →
        t.screen.cell r c =
          if c + 4 < (if s.hires then 128 else 64) then s.screen.cell r (c + 4) else false) ∧
      (∀ r c, ¬(r < (if s.hires then 64 else 32) ∧ c < (if s.hires then 128 else 64)) →
        t.screen.cell r c = s.screen.cell r c) ∧
      Straight [.screen] s t)

/-- `LOW` and `HIGH` set the mode and nothing else: the screen is not cleared (R95, R96). That they run in every
profile is the spec's inference D17 (log entry 22). -/
def Obligations.LowHighSwitchOnlyMode : Prop :=
  ∀ s : State,
    (∃ t, exec .low s = .next t ∧ t.hires = false ∧ Straight [.hires] s t) ∧
    (∃ t, exec .high s = .next t ∧ t.hires = true ∧ Straight [.hires] s t)

/-- `SYS nnn` only advances, whatever `nnn` is (R97). -/
def Obligations.SysOnlyAdvances : Prop :=
  ∀ (nnn : Imm12) (s : State), ∃ t, exec (.sys nnn) s = .next t ∧ Straight [] s t

/-! ## Control flow -/

/-- `JP nnn` (R102). -/
def Obligations.JpGoesToAddress : Prop :=
  ∀ (nnn : Imm12) (s : State), ∃ t, exec (.jp nnn) s = .next t ∧ t.pc.toNat = nnn.toNat ∧ Unchanged [] s t

/-- `CALL nnn` with fewer than 16 calls held stores the address after it, counts it and jumps; with 16 held it
faults and changes nothing else (R103). The order and the depth are the spec's decisions D2, D3 (log entries 11,
12). -/
def Obligations.CallPushesReturnAddress : Prop :=
  ∀ (nnn : Imm12) (s : State),
    (s.sp.val < 16 → ∃ t, exec (.call nnn) s = .next t ∧ t.pc.toNat = nnn.toNat ∧ t.sp.val = s.sp.val + 1 ∧
      (∀ k : Fin 16, t.stack[k.val] = if k.val = s.sp.val then s.pc + 2 else s.stack[k.val]) ∧
      Unchanged [.stack] s t) ∧
    (s.sp.val = 16 → exec (.call nnn) s = .next { s with fault := some .outOfRange })

/-- `RET` with a call held takes its address and uncounts it, leaving the entries; with none it faults and changes
nothing else (R101). The order and the check are the spec's decisions D2, D3 (log entries 11, 12). -/
def Obligations.RetPopsReturnAddress : Prop :=
  ∀ s : State,
    (∀ k : Fin 16, s.sp.val = k.val + 1 → ∃ t, exec .ret s = .next t ∧ t.pc = s.stack[k.val] ∧ t.sp.val = k.val ∧
      t.stack = s.stack ∧ Unchanged [.stack] s t) ∧
    (s.sp.val = 0 → exec .ret s = .next { s with fault := some .outOfRange })

/-- "executing `0x2NNN` then `0x00EE` restores `pc` to the instruction immediately after the call" (R101), and the
whole state but the dead stack entry. Rests on the order of D2 (log entry 11). -/
def Obligations.CallThenRetRoundTrip : Prop :=
  ∀ (nnn : Imm12) (s : State), s.sp.val < 16 → ∃ t u, exec (.call nnn) s = .next t ∧ exec .ret t = .next u ∧
    u.pc = s.pc + 2 ∧ u.sp = s.sp ∧ (∀ k : Fin 16, k.val ≠ s.sp.val → u.stack[k.val] = s.stack[k.val]) ∧
    Unchanged [.stack] s u

/-- The four compare-and-skips: over the next instruction when the condition holds, on to it otherwise, and nothing
else (R104 to R107). -/
def Obligations.ComparesSkipNextInstruction : Prop :=
  ∀ (x y : RegIx) (nn : Byte) (s : State),
    (∃ t, exec (.seVxNn x nn) s = .next t ∧ t.pc = (if s.getV x = nn then s.pc + 4 else s.pc + 2) ∧
      Unchanged [] s t) ∧
    (∃ t, exec (.sneVxNn x nn) s = .next t ∧ t.pc = (if s.getV x ≠ nn then s.pc + 4 else s.pc + 2) ∧
      Unchanged [] s t) ∧
    (∃ t, exec (.seVxVy x y) s = .next t ∧ t.pc = (if s.getV x = s.getV y then s.pc + 4 else s.pc + 2) ∧
      Unchanged [] s t) ∧
    (∃ t, exec (.sneVxVy x y) s = .next t ∧ t.pc = (if s.getV x ≠ s.getV y then s.pc + 4 else s.pc + 2) ∧
      Unchanged [] s t)

/-- `JP V0,nnn` adds `V[x]`, `x` the top nibble of `nnn`, under `Q.jump`, and `V[0]` otherwise (R109). That the sum
is not reduced is the spec's decision D22 (log entry 18). -/
def Obligations.JpV0AddsOffset : Prop :=
  ∀ (nnn : Imm12) (x : RegIx) (s : State), nnn.toNat / 256 = x.val → ∃ t, exec (.jpV0 nnn) s = .next t ∧
    t.pc.toNat = nnn.toNat + (if s.quirks.jump then s.getV x else s.getV 0).toNat ∧ Unchanged [] s t

/-! ## Arithmetic -/

/-- `LD Vx,nn`, `ADD Vx,nn` (modulo 256, no flag) and `LD Vx,Vy`: one register changes (R115, R116, R117). -/
def Obligations.RegisterLoadsAndAddImmediate : Prop :=
  ∀ (x y : RegIx) (nn : Byte) (s : State),
    (∃ t, exec (.ldVxNn x nn) s = .next t ∧ WritesReg x nn s t) ∧
    (∃ t, exec (.addVxNn x nn) s = .next t ∧
      WritesReg x (BitVec.ofNat 8 (((s.getV x).toNat + nn.toNat) % 256)) s t) ∧
    (∃ t, exec (.ldVxVy x y) s = .next t ∧ WritesReg x (s.getV y) s t)

/-- `OR`, `AND`, `XOR`: with `Q.logic` on the flag ends 0, also when it is the destination; with it off only the
destination changes (R118 to R120). That the zeroing is last is the spec's decision D11 (log entry 13). -/
def Obligations.LogicResultAndFlag : Prop :=
  ∀ (x y : RegIx) (s : State) (i : Instr) (r : Byte),
    (i = .orVxVy x y ∧ r = (s.getV x ||| s.getV y) ∨ i = .andVxVy x y ∧ r = (s.getV x &&& s.getV y) ∨
      i = .xorVxVy x y ∧ r = (s.getV x ^^^ s.getV y)) →
    ∃ t, exec i s = .next t ∧
      (s.quirks.logic = true → WritesResultAndFlag x r.toNat 0 s t) ∧
      (s.quirks.logic = false → WritesReg x r s t)

/-- `ADD Vx,Vy`, `SUB`, `SUBN`: the result modulo 256, then the carry or the inverse of the borrow (R121, R122, R124,
R127). Flag last is the spec's decision D11, `op4` = 7 its general knowledge GK2 (log entries 13, 7). -/
def Obligations.AddSubResultAndFlag : Prop :=
  ∀ (x y : RegIx) (s : State) (a b : Nat), (s.getV x).toNat = a → (s.getV y).toNat = b →
    (∃ t, exec (.addVxVy x y) s = .next t ∧
      WritesResultAndFlag x ((a + b) % 256) (if a + b > 255 then 1 else 0) s t) ∧
    (∃ t, exec (.subVxVy x y) s = .next t ∧
      WritesResultAndFlag x (if a ≥ b then a - b else a + 256 - b) (if a ≥ b then 1 else 0) s t) ∧
    (∃ t, exec (.subnVxVy x y) s = .next t ∧
      WritesResultAndFlag x (if b ≥ a then b - a else b + 256 - a) (if b ≥ a then 1 else 0) s t)

/-- `SHR` and `SHL` by one: of `V[x]` under `Q.shift`, of `V[y]` otherwise; the bit shifted out is the flag (R123,
R125). The directions are the spec's general knowledge GK2, flag last its decision D11 (log entries 7, 13). -/
def Obligations.ShiftResultAndFlag : Prop :=
  ∀ (x y : RegIx) (s : State) (v : Nat), (if s.quirks.shift then s.getV x else s.getV y).toNat = v →
    (∃ t, exec (.shrVxVy x y) s = .next t ∧ WritesResultAndFlag x (v / 2) (v % 2) s t) ∧
    (∃ t, exec (.shlVxVy x y) s = .next t ∧ WritesResultAndFlag x (v * 2 % 256) (v / 128) s t)

/-- `RND Vx,nn` loads a fresh free byte under the mask and writes nothing else of the machine's; it holds for every
value of the free byte (R126, D24; log entry 2). -/
def Obligations.RndMasksFreeByte : Prop :=
  ∀ (x : RegIx) (nn : Byte) (s : State), ∃ t, exec (.rnd x nn) s = .next t ∧
    t.getV x = Config.freeByte s.draws &&& nn ∧ (nn = 0 → t.getV x = 0) ∧ t.draws = s.draws + 1 ∧
    RegsKept [x] s t ∧ Straight [.regs, .draws] s t

/-! ## Index register and memory -/

/-- `LD I,nnn` and `ADD I,Vx`, the second modulo 65536 and without a flag (R136, R137). The wrap of `I` is the spec's
decision D22 (log entry 18). -/
def Obligations.IndexLoadAndAdd : Prop :=
  ∀ (nnn : Imm12) (x : RegIx) (s : State),
    (∃ t, exec (.ldINnn nnn) s = .next t ∧ t.i.toNat = nnn.toNat ∧ Straight [.index] s t) ∧
    (∃ t, exec (.addIVx x) s = .next t ∧ t.i.toNat = (s.i.toNat + (s.getV x).toNat) % 65536 ∧
      Straight [.index] s t)

/-- `LD F,Vx` and `LD HF,Vx` point `I` at glyph `V[x]` (R138, R139). The whole byte is the spec's decision D21, the
base 0x050 its D9 (log entries 16, 6). -/
def Obligations.GlyphPointers : Prop :=
  ∀ (x : RegIx) (s : State),
    (∃ t, exec (.ldFVx x) s = .next t ∧ t.i.toNat = 5 * (s.getV x).toNat ∧ Straight [.index] s t) ∧
    (∃ t, exec (.ldHfVx x) s = .next t ∧ t.i.toNat = 0x050 + 10 * (s.getV x).toNat ∧ Straight [.index] s t)

/-- `LD B,Vx` stores the three decimal digits at `I`, and no other byte; past 0xFFD it faults and stores nothing
(R140; the check is the spec's decision D3, log entry 12). -/
def Obligations.BcdStoresDigits : Prop :=
  ∀ (x : RegIx) (s : State),
    (s.i.toNat + 2 ≤ 0xFFF → ∃ t, exec (.ldBVx x) s = .next t ∧
      (t.byteAt s.i.toNat).toNat = (s.getV x).toNat / 100 ∧
      (t.byteAt (s.i.toNat + 1)).toNat = (s.getV x).toNat / 10 % 10 ∧
      (t.byteAt (s.i.toNat + 2)).toNat = (s.getV x).toNat % 10 ∧
      BytesKept s.i.toNat 3 s t ∧ Straight [.mem] s t) ∧
    (s.i.toNat + 2 > 0xFFF → exec (.ldBVx x) s = .next { s with fault := some .outOfRange })

/-- `LD [I],Vx` stores `V0..Vx` at `I` upward, and no other byte; `I` advances by `x+1` modulo 65536 unless
`Q.loadstore`; past the top it faults and changes nothing else (R141; the check is the spec's decision D3, the
modulus D22, log entries 12, 18). -/
def Obligations.BulkStoreWritesRegisters : Prop :=
  ∀ (x : RegIx) (s : State),
    (s.i.toNat + x.val ≤ 0xFFF → ∃ t, exec (.ldMemVx x) s = .next t ∧
      (∀ k : RegIx, k ≤ x → t.byteAt (s.i.toNat + k.val) = s.getV k) ∧
      BytesKept s.i.toNat (x.val + 1) s t ∧
      t.i.toNat = (if s.quirks.loadstore then s.i.toNat else (s.i.toNat + x.val + 1) % 65536) ∧
      Straight [.mem, .index] s t) ∧
    (s.i.toNat + x.val > 0xFFF → exec (.ldMemVx x) s = .next { s with fault := some .outOfRange })

/-- `LD Vx,[I]` loads `V0..Vx` from `I` upward and keeps the registers above; `I` as for the store; past the top it
faults and changes nothing else (R142; decisions D3, D22, log entries 12, 18). -/
def Obligations.BulkLoadReadsMemory : Prop :=
  ∀ (x : RegIx) (s : State),
    (s.i.toNat + x.val ≤ 0xFFF → ∃ t, exec (.ldVxMem x) s = .next t ∧
      (∀ k : RegIx, t.getV k = if k ≤ x then s.byteAt (s.i.toNat + k.val) else s.getV k) ∧
      t.i.toNat = (if s.quirks.loadstore then s.i.toNat else (s.i.toNat + x.val + 1) % 65536) ∧
      Straight [.regs, .index] s t) ∧
    (s.i.toNat + x.val > 0xFFF → exec (.ldVxMem x) s = .next { s with fault := some .outOfRange })

/-- What `LD [I],Vx` stores, `LD Vx,[I]` at the same `I` restores, whatever the registers hold in between (R141,
R142, R50). -/
def Obligations.BulkStoreThenLoadRestores : Prop :=
  ∀ (x : RegIx) (s : State) (w : Vector Byte 16), s.i.toNat + x.val ≤ 0xFFF →
    ∃ t u, exec (.ldMemVx x) s = .next t ∧ exec (.ldVxMem x) { t with v := w, i := s.i } = .next u ∧
      ∀ k : RegIx, u.getV k = if k ≤ x then s.getV k else w[k.val]

/-- Fetch is coherent with stores: bytes stored by `LD [I],Vx` are what the very next fetch at their address decodes
and runs (R53, R46). -/
def Obligations.StoredCodeRuns : Prop :=
  ∀ (x k : RegIx) (s : State) (i : Instr) (hk : k.val + 1 < 16), k.val + 1 ≤ x.val → s.running →
    s.i.toNat + x.val ≤ 0xFFF → decode (wordOfBytes (s.getV k) (s.getV ⟨k.val + 1, hk⟩)) = .ok i →
    ∃ t, exec (.ldMemVx x) s = .next t ∧
      ∀ r u, u = { t with pc := s.i + BitVec.ofNat 16 k.val } → r.callsCpuStep u → step r = exec i u

/-- `LD R,Vx` and `LD Vx,R` copy `V0..Vx` to the bank and back; entries and registers above are kept (R143, R144). -/
def Obligations.FlagBankTransfers : Prop :=
  ∀ (x : RegIx) (s : State),
    (∃ t, exec (.ldRVx x) s = .next t ∧
      (∀ k : RegIx, t.rpl[k.val] = if k ≤ x then s.getV k else s.rpl[k.val]) ∧ Straight [.rpl] s t) ∧
    (∃ t, exec (.ldVxR x) s = .next t ∧
      (∀ k : RegIx, t.getV k = if k ≤ x then s.rpl[k.val] else s.getV k) ∧ Straight [.regs] s t)

/-! ## Draw -/

/-- `DRW` with all its sprite bytes in memory completes: `VF` is 0 or 1, the latch is set under `Q.vblank` and kept
otherwise, and only `screen`, `VF` and the latch change; with no rows it draws nothing and leaves `VF` 0; with a
byte past the top it faults and changes nothing else (R150, R152, R156; the check is the spec's D3, D15, log
entries 12, 14). -/
def Obligations.DrwCompletesAndFrame : Prop :=
  ∀ (x y : RegIx) (n : Fin 16) (s : State),
    (¬(Instr.drw x y n).outOfRange s → ∃ t, exec (.drw x y n) s = .next t ∧
      (t.getV 15 = 0 ∨ t.getV 15 = 1) ∧ RegsKept [15] s t ∧
      t.vblankWait = (if s.quirks.vblank then true else s.vblankWait) ∧
      (s.hires = false → n = 0 → t.getV 15 = 0 ∧ Part.screen.same s t) ∧
      Straight [.screen, .regs, .latch] s t) ∧
    ((Instr.drw x y n).outOfRange s → exec (.drw x y n) s = .next { s with fault := some .outOfRange })

/-- The drawing algorithm cell by cell: a cell is toggled exactly when some set sprite pixel that is not discarded
lands on it, and `VF` is 1 exactly when one lands on a lit cell (R150, R151, R153, R154). The bit order is the spec's
general knowledge GK3, the coordinates its decision D13, the order of the register reads D12 (log entries 8, 14,
13). -/
def Obligations.DrwTogglesWherePixelsLand : Prop :=
  ∀ (x y : RegIx) (n : Fin 16) (s t : State), ¬(Instr.drw x y n).outOfRange s → exec (.drw x y n) s = .next t →
    (∀ r c, ((∃ p q, s.spriteLands x y n p q r c) → t.screen.cell r c = !s.screen.cell r c) ∧
      (¬(∃ p q, s.spriteLands x y n p q r c) → t.screen.cell r c = s.screen.cell r c)) ∧
    (t.getV 15 = 1 ↔ ∃ p q r c, s.spriteLands x y n p q r c ∧ s.screen.cell r c = true)

/-- "drawing the identical sprite at the identical coordinates twice in a row restores the screen to its pre-draw
state and reports a collision (`vF=1`) on the second draw wherever the first draw set a pixel" (R154): with
coordinate registers other than `VF`, which the first draw writes. -/
def Obligations.DrwTwiceRestoresScreen : Prop :=
  ∀ (x y : RegIx) (n : Fin 16) (s : State), x ≠ 15 → y ≠ 15 → ¬(Instr.drw x y n).outOfRange s →
    ∃ t u, exec (.drw x y n) s = .next t ∧ exec (.drw x y n) t = .next u ∧ Part.screen.same s u ∧
      (u.getV 15 = 1 ↔ ∃ r c, t.screen.cell r c = true ∧ s.screen.cell r c = false)

/-- After a `DRW` under `Q.vblank` every further `cpu_step` is stalled, and the latch falls only by `timer_tick`, also
one of a frame, or by `reset`: no instruction and no other call of the host clears it (R24, R81, R156). -/
def Obligations.VblankLatchClearedOnlyByTick : Prop :=
  (∀ (x y : RegIx) (n : Fin 16) (s t : State), s.pending = [] → s.fault = none → s.quirks.vblank = true →
    exec (.drw x y n) s = .next t → t.fault = none → step t = .next t) ∧
  ∀ s t : State, step s = .next t → s.vblankWait = true → t.vblankWait = false →
    ∃ op rest, s.pending = op :: rest ∧ (op = .timerTick ∨ op = .reset ∨ ∃ k d, op = .frameRest 0 (k + 1) d)

/-- In low resolution no instruction but `CLS` changes a cell outside the top-left 64 by 32 (R95, R90, R153; the place
of the region is the spec's D13 and D16, log entries 14, 15). -/
def Obligations.LowResolutionKeepsOutside : Prop :=
  ∀ (i : Instr) (s t : State) (r c : Nat), s.hires = false → i ≠ .cls → exec i s = .next t →
    ¬(r < 32 ∧ c < 64) → t.screen.cell r c = s.screen.cell r c

/-! ## Keypad and timers -/

/-- `SKP` and `SKNP` skip on the state of key `V[x]`; a key number above 15 faults (R161, R162; the fault is the spec's
decision D19, log entry 17). -/
def Obligations.KeySkips : Prop :=
  ∀ (x : RegIx) (s : State),
    (∀ k : Fin 16, (s.getV x).toNat = k.val →
      (∃ t, exec (.skp x) s = .next t ∧ t.pc = (if s.keys[k.val] then s.pc + 4 else s.pc + 2) ∧
        Unchanged [] s t) ∧
      (∃ t, exec (.sknp x) s = .next t ∧ t.pc = (if s.keys[k.val] then s.pc + 2 else s.pc + 4) ∧
        Unchanged [] s t)) ∧
    ((s.getV x).toNat > 15 → exec (.skp x) s = .next { s with fault := some .outOfRange } ∧
      exec (.sknp x) s = .next { s with fault := some .outOfRange })

/-- `LD Vx,K`: with a key down it captures the number of some pressed key, whichever the free choice picks; with none
it changes nothing at all (R164; any pressed key is the spec's decision D20, log entry 3). -/
def Obligations.KeyWaitCapturesPressedKey : Prop :=
  ∀ (x : RegIx) (s : State),
    ((∃ k : Fin 16, s.keys[k.val] = true) → ∃ t, exec (.ldVxK x) s = .next t ∧
      (∃ k : Fin 16, s.keys[k.val] = true ∧ (t.getV x).toNat = k.val) ∧ RegsKept [x] s t ∧
      Straight [.regs, .draws] s t) ∧
    ((∀ k : Fin 16, s.keys[k.val] = false) → exec (.ldVxK x) s = .next s)

/-- `LD Vx,DT`, `LD DT,Vx`, `LD ST,Vx` (R163, R165, R166). -/
def Obligations.TimerTransfers : Prop :=
  ∀ (x : RegIx) (s : State),
    (∃ t, exec (.ldVxDt x) s = .next t ∧ WritesReg x s.delay s t) ∧
    (∃ t, exec (.ldDtVx x) s = .next t ∧ t.delay = s.getV x ∧ Straight [.delay] s t) ∧
    (∃ t, exec (.ldStVx x) s = .next t ∧ t.sound = s.getV x ∧ Straight [.sound] s t)

/-! ## The host's operations -/

/-- `timer_tick` clears the latch in every profile and takes one off each timer that is above zero, and nothing else,
also on a faulted machine (R185). -/
def Obligations.TimerTickCountsDown : Prop :=
  ∀ (s : State) (rest : List HostOp), s.pending = .timerTick :: rest → ∃ t, step s = .next t ∧
    t.vblankWait = false ∧ t.delay.toNat = s.delay.toNat - 1 ∧ t.sound.toNat = s.sound.toNat - 1 ∧ t.pc = s.pc ∧
    t.pending = rest ∧ Unchanged [.latch, .delay, .sound, .pending] s t

/-- `set_key` stores one key's state; a key above 15 is refused and changes nothing; `display_tick` changes nothing
(R180, R187; the refusal is the spec's decision D32, the second D30, log entry 20). -/
def Obligations.SetKeyAndDisplayTick : Prop :=
  ∀ (s : State) (rest : List HostOp) (k : Nat) (pressed : Bool),
    (s.pending = .setKey k pressed :: rest → ∃ t, step s = .next t ∧ t.pc = s.pc ∧ t.pending = rest ∧
      (∀ j : Fin 16, t.keys[j.val] = if j.val = k then pressed else s.keys[j.val]) ∧
      Unchanged [.keys, .pending] s t) ∧
    (s.pending = .displayTick :: rest → ∃ t, step s = .next t ∧ t.pc = s.pc ∧ t.pending = rest ∧
      Unchanged [.pending] s t)

/-- `select_profile` switches all six switches and the size limit to the named bundle, `chip8` for any other string,
and changes no Machine State (R181, R26). -/
def Obligations.SelectProfileSwitchesBundle : Prop :=
  ∀ (s : State) (rest : List HostOp) (name : String), s.pending = .selectProfile name :: rest →
    ∃ t, step s = .next t ∧ t.pc = s.pc ∧ t.pending = rest ∧ Unchanged [.profile, .pending] s t ∧
      t.quirks =
        (if name = "schip" then ⟨true, true, true, true, false, false, 3583⟩
          else if name = "xo" then ⟨false, false, false, false, false, false, 65024⟩
          else ⟨false, false, true, false, true, true, 3232⟩)

/-- `reset` gives every piece of Machine State its value of R31, memory byte by byte as R41 maps it, and keeps the profile and the
accumulators (R200). The values of screen, latch, keys and stack are the spec's decision D6, what it keeps D7 (log
entries 9, 10); the two fonts are the parameters of D8 and D9, whatever their values, and the place of the second D9
(log entries 5, 6, 33). -/
def Obligations.ResetRestoresMachineState : Prop :=
  ∀ (s : State) (rest : List HostOp), s.pending = .reset :: rest → ∃ t, step s = .next t ∧
    t.pc.toNat = 0x200 ∧ t.i = 0 ∧ t.sp = 0 ∧ t.delay = 0 ∧ t.sound = 0 ∧ t.hires = false ∧ t.vblankWait = false ∧
    t.fault = none ∧
    (∀ k : Fin 16, t.getV k = 0 ∧ t.rpl[k.val] = 0 ∧ t.stack[k.val] = 0 ∧ t.keys[k.val] = false) ∧
    (∀ r c, t.screen.cell r c = false) ∧
    (∀ k : Fin 80, t.byteAt k.val = s.params.font[k.val]) ∧
    (∀ a, 0x050 ≤ a → a < 0x0F0 → t.byteAt a = s.params.bigFont.getD (a - 0x050) 0) ∧
    (∀ a, 0x0F0 ≤ a → t.byteAt a = 0) ∧
    t.pending = rest ∧ Part.profile.same s t ∧ Part.accs.same s t ∧ Part.params.same s t

/-- The state at creation has the values of R31 and R41 (R201), for every value of the parameters: the two fonts and nothing
else in memory, `pc` at 0x200, the `chip8` bundle, zero accumulators. Screen, keys, latch and stack are the spec's D6,
accumulators its D7 (log entries 9, 10). The fonts are the parameters of D8 and D9, the place of the second and its
default, no bytes, D9, the default frequencies D36 (log entries 5, 6, 19, 33). -/
def Obligations.CreationState : Prop :=
  (∀ (p : Params) (s : State), s = State.creation p →
    s.pc = 0x200 ∧ s.i = 0 ∧ s.sp = 0 ∧ s.delay = 0 ∧ s.sound = 0 ∧ s.hires = false ∧ s.vblankWait = false ∧
    s.fault = none ∧
    (∀ k : Fin 16, s.getV k = 0 ∧ s.rpl[k.val] = 0 ∧ s.stack[k.val] = 0 ∧ s.keys[k.val] = false) ∧
    (∀ r c, s.screen.cell r c = false) ∧
    (∀ k : Fin 80, s.byteAt k.val = p.font[k.val]) ∧
    (∀ a, 0x050 ≤ a → a < 0x0F0 → s.byteAt a = p.bigFont.getD (a - 0x050) 0) ∧
    (∀ a, 0x0F0 ≤ a → s.byteAt a = 0) ∧
    s.profile = .chip8 ∧ s.accCpu = 0 ∧ s.accTimers = 0 ∧ s.accDisplay = 0 ∧ s.params = p) ∧
  State.reset = State.creation defaultParams ∧ defaultParams.bigFont = [] ∧
  defaultParams.freqCpu = 700 ∧ defaultParams.freqTimers = 60 ∧ defaultParams.freqDisplay = 60

/-- `load` copies an image of at most 3584 bytes verbatim to 0x200 upward and changes no other byte, not `pc` and
nothing else; a longer image is refused and changes nothing (R203; the refusal is the spec's decision D31, log entry
20). -/
def Obligations.LoadCopiesImage : Prop :=
  ∀ (s : State) (rest : List HostOp) (image : List Byte), s.pending = .load image :: rest →
    ∃ t, step s = .next t ∧ t.pc = s.pc ∧ t.pending = rest ∧ Unchanged [.mem, .pending] s t ∧
      (image.length ≤ 3584 → (∀ k, k < image.length → t.byteAt (0x200 + k) = image.getD k 0) ∧
        BytesKept 0x200 image.length s t) ∧
      (3584 < image.length → Part.mem.same s t)

/-- `schedule` splits each accumulator plus the elapsed time at its frequency into whole ticks emitted and a fraction
kept, touching nothing else, at every value of the three frequencies; `now < prev` is refused (R190, R191). Exactness
and the refusal are the spec's decisions D27, D29, that the frequencies are parameters its D36 (log entries 19, 33). -/
def Obligations.ScheduleSplitsExactly : Prop :=
  ∀ (s : State) (rest : List HostOp) (prev now : Rat), s.pending = .schedule prev now :: rest → s.params.wf →
    fraction s.accCpu → fraction s.accTimers → fraction s.accDisplay →
    ∃ t, step s = .next t ∧ t.pc = s.pc ∧ t.pending = rest ∧ Unchanged [.accs, .pending] s t ∧
      (prev ≤ now → ∃ n : TickCounts, scheduleCounts prev now s = some n ∧
        fraction t.accCpu ∧ fraction t.accTimers ∧ fraction t.accDisplay ∧
        (n.cpu : Rat) + t.accCpu = s.accCpu + (now - prev) * s.params.freqCpu ∧
        (n.timers : Rat) + t.accTimers = s.accTimers + (now - prev) * s.params.freqTimers ∧
        (n.display : Rat) + t.accDisplay = s.accDisplay + (now - prev) * s.params.freqDisplay) ∧
      (now < prev → scheduleCounts prev now s = none ∧ Part.accs.same s t)

/-- No tick is lost to truncation: over any sequence of calls from a zero accumulator, the ticks emitted sum to the
floor of total time times frequency, and the accumulator keeps the rest (R191 (b); the exact arithmetic is the
spec's decision D27, log entry 19). -/
def Obligations.ScheduleLosesNoTicks : Prop :=
  ∀ (f : Rat) (elapsed : List Rat), 0 ≤ f → (∀ e ∈ elapsed, 0 ≤ e) →
    ((scheduleRun f 0 elapsed).1 : Int) = ⌊elapsed.sum * f⌋ ∧
    (scheduleRun f 0 elapsed).2 = elapsed.sum * f - ⌊elapsed.sum * f⌋

/-- The integer realisation with a reference clock gives the same ticks and the same fraction (R192, which the spec
derives; log entry 19). -/
def Obligations.IntegerSchedulerAgrees : Prop :=
  ∀ clkHz num d f : Nat, 0 < clkHz → num < clkHz →
    (scheduleInteger clkHz num d f).1 = ticksDue ((num : Rat) / clkHz) ((d : Rat) / clkHz) f ∧
    ((scheduleInteger clkHz num d f).2 : Rat) / clkHz = accAfter ((num : Rat) / clkHz) ((d : Rat) / clkHz) f

/-- A frame schedules, leaving the accumulators as `schedule` does and nothing of the elapsed time lost, and then makes
its counts of calls before any other call of the host: all CPU steps, then all timer ticks, then all display ticks;
once the machine has faulted the remaining counts are not executed; a frame with `now < prev` is refused (R193, R190).
The order is the spec's decision D28, the refusal its D29; the list of calls, the spread of a frame over steps and
dropping the counts in one step are the model's own, and so is all that a frame does on a machine faulted before it
(log entries 19, 1, 29, 31). -/
def Obligations.FrameRunsCpuThenTimersThenDisplay : Prop :=
  (∀ (s : State) (rest : List HostOp) (prev now : Rat), s.pending = .frame prev now :: rest →
    (prev ≤ now → ∃ n t, scheduleCounts prev now s = some n ∧ step s = .next t ∧
      t.pending = .frameRest n.cpu n.timers n.display :: rest ∧ t.pc = s.pc ∧ Unchanged [.accs, .pending] s t ∧
      Part.accs.same (hostSchedule prev now s) t ∧
      (n.cpu : Rat) + t.accCpu = s.accCpu + (now - prev) * s.params.freqCpu ∧
      (n.timers : Rat) + t.accTimers = s.accTimers + (now - prev) * s.params.freqTimers ∧
      (n.display : Rat) + t.accDisplay = s.accDisplay + (now - prev) * s.params.freqDisplay) ∧
    (now < prev → step s = .next { s with pending := rest })) ∧
  (∀ (s : State) (rest : List HostOp) (c t d : Nat), s.pending = .frameRest c t d :: rest →
    (s.fault ≠ none → step s = .next { s with pending := rest }) ∧
    (s.fault = none → 0 < c →
      step s = cpuStep { s with pending := .frameRest (c - 1) t d :: rest }) ∧
    (s.fault = none → c = 0 → 0 < t →
      step s = .next (hostTimerTick { s with pending := .frameRest 0 (t - 1) d :: rest })) ∧
    (s.fault = none → c = 0 → t = 0 → 0 < d →
      step s = .next { s with pending := .frameRest 0 0 (d - 1) :: rest }) ∧
    (s.fault = none → c = 0 → t = 0 → d = 0 → step s = .next { s with pending := rest }))

/-! ## The whole machine -/

/-- The state at creation meets the invariant. -/
def Obligations.CreationMeetsInvariant : Prop := State.reset.Inv

/-- Every step, of the CPU or of the host, keeps the invariant: memory in canonical form, `pc` at most 0x10FE and
return addresses at most 0x1000 (R17, R108), accumulators in [0, 1) (R28, R191 (a)), parameters of values they can
take. -/
def Obligations.StepKeepsInvariant : Prop := ∀ s t : State, s.Inv → step s = .next t → t.Inv

/-- The access table: an instruction that does not fault changes no piece of the state that R33 does not list it as
writing. -/
def Obligations.WritersAreTheAccessTable : Prop :=
  ∀ (i : Instr) (s t : State), exec i s = .next t → ¬i.outOfRange s → Unchanged i.writes s t

/-- A `cpu_step`, however it is called, never writes what only the host writes: the keys, the profile, the
accumulators, the parameters and the host's calls still to come (R25, R27, R28, R33). -/
def Obligations.CpuStepKeepsHostState : Prop :=
  ∀ s u t : State, s.callsCpuStep u → s.fault = none → step s = .next t →
    t.keys = s.keys ∧ t.profile = s.profile ∧ Part.accs.same s t ∧ Part.params.same s t ∧ t.pending = u.pending

/-- No instruction reads `sound`: two states that differ only in it go on differing only in it (R21). -/
def Obligations.SoundIsNeverRead : Prop :=
  ∀ (i : Instr) (s t : State) (b : Byte), exec i s = .next t →
    ∃ u, exec i { s with sound := b } = .next u ∧ u = { t with sound := u.sound } ∧
      (u.sound = t.sound ∨ (u.sound = b ∧ t.sound = s.sound))

/-- Only the instructions of R15's list change `VF`. -/
def Obligations.VfWrittenOnlyAsListed : Prop :=
  ∀ (i : Instr) (s t : State), exec i s = .next t → t.getV 15 ≠ s.getV 15 → i.mayWriteVf s
end

