-- ==== Sys2Proof/Laws/State.lean ====
section
/-! SUPPORT. One lemma per field per update of State, true by rfl, so that no proof unfolds a record update. -/

namespace Sys2Proof.Machine

@[simp] theorem State.setMem_mem (s : State) (m : Memory) : (s.setMem m).mem = m := rfl
@[simp] theorem State.setMem_v (s : State) (m : Memory) : (s.setMem m).v = s.v := rfl
@[simp] theorem State.setMem_i (s : State) (m : Memory) : (s.setMem m).i = s.i := rfl
@[simp] theorem State.setMem_pc (s : State) (m : Memory) : (s.setMem m).pc = s.pc := rfl
@[simp] theorem State.setMem_sp (s : State) (m : Memory) : (s.setMem m).sp = s.sp := rfl
@[simp] theorem State.setMem_stack (s : State) (m : Memory) : (s.setMem m).stack = s.stack := rfl
@[simp] theorem State.setMem_rpl (s : State) (m : Memory) : (s.setMem m).rpl = s.rpl := rfl
@[simp] theorem State.setMem_delay (s : State) (m : Memory) : (s.setMem m).delay = s.delay := rfl
@[simp] theorem State.setMem_sound (s : State) (m : Memory) : (s.setMem m).sound = s.sound := rfl
@[simp] theorem State.setMem_screen (s : State) (m : Memory) : (s.setMem m).screen = s.screen := rfl
@[simp] theorem State.setMem_hires (s : State) (m : Memory) : (s.setMem m).hires = s.hires := rfl
@[simp] theorem State.setMem_vblankWait (s : State) (m : Memory) : (s.setMem m).vblankWait = s.vblankWait := rfl
@[simp] theorem State.setMem_keys (s : State) (m : Memory) : (s.setMem m).keys = s.keys := rfl
@[simp] theorem State.setMem_profile (s : State) (m : Memory) : (s.setMem m).profile = s.profile := rfl
@[simp] theorem State.setMem_accCpu (s : State) (m : Memory) : (s.setMem m).accCpu = s.accCpu := rfl
@[simp] theorem State.setMem_accTimers (s : State) (m : Memory) : (s.setMem m).accTimers = s.accTimers := rfl
@[simp] theorem State.setMem_accDisplay (s : State) (m : Memory) : (s.setMem m).accDisplay = s.accDisplay := rfl
@[simp] theorem State.setMem_fault (s : State) (m : Memory) : (s.setMem m).fault = s.fault := rfl
@[simp] theorem State.setMem_params (s : State) (m : Memory) : (s.setMem m).params = s.params := rfl
@[simp] theorem State.setMem_draws (s : State) (m : Memory) : (s.setMem m).draws = s.draws := rfl
@[simp] theorem State.setMem_pending (s : State) (m : Memory) : (s.setMem m).pending = s.pending := rfl

@[simp] theorem State.setRegs_mem (s : State) (v : Vector Byte 16) : (s.setRegs v).mem = s.mem := rfl
@[simp] theorem State.setRegs_v (s : State) (v : Vector Byte 16) : (s.setRegs v).v = v := rfl
@[simp] theorem State.setRegs_i (s : State) (v : Vector Byte 16) : (s.setRegs v).i = s.i := rfl
@[simp] theorem State.setRegs_pc (s : State) (v : Vector Byte 16) : (s.setRegs v).pc = s.pc := rfl
@[simp] theorem State.setRegs_sp (s : State) (v : Vector Byte 16) : (s.setRegs v).sp = s.sp := rfl
@[simp] theorem State.setRegs_stack (s : State) (v : Vector Byte 16) : (s.setRegs v).stack = s.stack := rfl
@[simp] theorem State.setRegs_rpl (s : State) (v : Vector Byte 16) : (s.setRegs v).rpl = s.rpl := rfl
@[simp] theorem State.setRegs_delay (s : State) (v : Vector Byte 16) : (s.setRegs v).delay = s.delay := rfl
@[simp] theorem State.setRegs_sound (s : State) (v : Vector Byte 16) : (s.setRegs v).sound = s.sound := rfl
@[simp] theorem State.setRegs_screen (s : State) (v : Vector Byte 16) : (s.setRegs v).screen = s.screen := rfl
@[simp] theorem State.setRegs_hires (s : State) (v : Vector Byte 16) : (s.setRegs v).hires = s.hires := rfl
@[simp] theorem State.setRegs_vblankWait (s : State) (v : Vector Byte 16) : (s.setRegs v).vblankWait = s.vblankWait := rfl
@[simp] theorem State.setRegs_keys (s : State) (v : Vector Byte 16) : (s.setRegs v).keys = s.keys := rfl
@[simp] theorem State.setRegs_profile (s : State) (v : Vector Byte 16) : (s.setRegs v).profile = s.profile := rfl
@[simp] theorem State.setRegs_accCpu (s : State) (v : Vector Byte 16) : (s.setRegs v).accCpu = s.accCpu := rfl
@[simp] theorem State.setRegs_accTimers (s : State) (v : Vector Byte 16) : (s.setRegs v).accTimers = s.accTimers := rfl
@[simp] theorem State.setRegs_accDisplay (s : State) (v : Vector Byte 16) : (s.setRegs v).accDisplay = s.accDisplay := rfl
@[simp] theorem State.setRegs_fault (s : State) (v : Vector Byte 16) : (s.setRegs v).fault = s.fault := rfl
@[simp] theorem State.setRegs_params (s : State) (v : Vector Byte 16) : (s.setRegs v).params = s.params := rfl
@[simp] theorem State.setRegs_draws (s : State) (v : Vector Byte 16) : (s.setRegs v).draws = s.draws := rfl
@[simp] theorem State.setRegs_pending (s : State) (v : Vector Byte 16) : (s.setRegs v).pending = s.pending := rfl

@[simp] theorem State.setI_mem (s : State) (w : Word) : (s.setI w).mem = s.mem := rfl
@[simp] theorem State.setI_v (s : State) (w : Word) : (s.setI w).v = s.v := rfl
@[simp] theorem State.setI_i (s : State) (w : Word) : (s.setI w).i = w := rfl
@[simp] theorem State.setI_pc (s : State) (w : Word) : (s.setI w).pc = s.pc := rfl
@[simp] theorem State.setI_sp (s : State) (w : Word) : (s.setI w).sp = s.sp := rfl
@[simp] theorem State.setI_stack (s : State) (w : Word) : (s.setI w).stack = s.stack := rfl
@[simp] theorem State.setI_rpl (s : State) (w : Word) : (s.setI w).rpl = s.rpl := rfl
@[simp] theorem State.setI_delay (s : State) (w : Word) : (s.setI w).delay = s.delay := rfl
@[simp] theorem State.setI_sound (s : State) (w : Word) : (s.setI w).sound = s.sound := rfl
@[simp] theorem State.setI_screen (s : State) (w : Word) : (s.setI w).screen = s.screen := rfl
@[simp] theorem State.setI_hires (s : State) (w : Word) : (s.setI w).hires = s.hires := rfl
@[simp] theorem State.setI_vblankWait (s : State) (w : Word) : (s.setI w).vblankWait = s.vblankWait := rfl
@[simp] theorem State.setI_keys (s : State) (w : Word) : (s.setI w).keys = s.keys := rfl
@[simp] theorem State.setI_profile (s : State) (w : Word) : (s.setI w).profile = s.profile := rfl
@[simp] theorem State.setI_accCpu (s : State) (w : Word) : (s.setI w).accCpu = s.accCpu := rfl
@[simp] theorem State.setI_accTimers (s : State) (w : Word) : (s.setI w).accTimers = s.accTimers := rfl
@[simp] theorem State.setI_accDisplay (s : State) (w : Word) : (s.setI w).accDisplay = s.accDisplay := rfl
@[simp] theorem State.setI_fault (s : State) (w : Word) : (s.setI w).fault = s.fault := rfl
@[simp] theorem State.setI_params (s : State) (w : Word) : (s.setI w).params = s.params := rfl
@[simp] theorem State.setI_draws (s : State) (w : Word) : (s.setI w).draws = s.draws := rfl
@[simp] theorem State.setI_pending (s : State) (w : Word) : (s.setI w).pending = s.pending := rfl

@[simp] theorem State.setPc_mem (s : State) (w : Word) : (s.setPc w).mem = s.mem := rfl
@[simp] theorem State.setPc_v (s : State) (w : Word) : (s.setPc w).v = s.v := rfl
@[simp] theorem State.setPc_i (s : State) (w : Word) : (s.setPc w).i = s.i := rfl
@[simp] theorem State.setPc_pc (s : State) (w : Word) : (s.setPc w).pc = w := rfl
@[simp] theorem State.setPc_sp (s : State) (w : Word) : (s.setPc w).sp = s.sp := rfl
@[simp] theorem State.setPc_stack (s : State) (w : Word) : (s.setPc w).stack = s.stack := rfl
@[simp] theorem State.setPc_rpl (s : State) (w : Word) : (s.setPc w).rpl = s.rpl := rfl
@[simp] theorem State.setPc_delay (s : State) (w : Word) : (s.setPc w).delay = s.delay := rfl
@[simp] theorem State.setPc_sound (s : State) (w : Word) : (s.setPc w).sound = s.sound := rfl
@[simp] theorem State.setPc_screen (s : State) (w : Word) : (s.setPc w).screen = s.screen := rfl
@[simp] theorem State.setPc_hires (s : State) (w : Word) : (s.setPc w).hires = s.hires := rfl
@[simp] theorem State.setPc_vblankWait (s : State) (w : Word) : (s.setPc w).vblankWait = s.vblankWait := rfl
@[simp] theorem State.setPc_keys (s : State) (w : Word) : (s.setPc w).keys = s.keys := rfl
@[simp] theorem State.setPc_profile (s : State) (w : Word) : (s.setPc w).profile = s.profile := rfl
@[simp] theorem State.setPc_accCpu (s : State) (w : Word) : (s.setPc w).accCpu = s.accCpu := rfl
@[simp] theorem State.setPc_accTimers (s : State) (w : Word) : (s.setPc w).accTimers = s.accTimers := rfl
@[simp] theorem State.setPc_accDisplay (s : State) (w : Word) : (s.setPc w).accDisplay = s.accDisplay := rfl
@[simp] theorem State.setPc_fault (s : State) (w : Word) : (s.setPc w).fault = s.fault := rfl
@[simp] theorem State.setPc_params (s : State) (w : Word) : (s.setPc w).params = s.params := rfl
@[simp] theorem State.setPc_draws (s : State) (w : Word) : (s.setPc w).draws = s.draws := rfl
@[simp] theorem State.setPc_pending (s : State) (w : Word) : (s.setPc w).pending = s.pending := rfl

@[simp] theorem State.setSp_mem (s : State) (n : Fin 17) : (s.setSp n).mem = s.mem := rfl
@[simp] theorem State.setSp_v (s : State) (n : Fin 17) : (s.setSp n).v = s.v := rfl
@[simp] theorem State.setSp_i (s : State) (n : Fin 17) : (s.setSp n).i = s.i := rfl
@[simp] theorem State.setSp_pc (s : State) (n : Fin 17) : (s.setSp n).pc = s.pc := rfl
@[simp] theorem State.setSp_sp (s : State) (n : Fin 17) : (s.setSp n).sp = n := rfl
@[simp] theorem State.setSp_stack (s : State) (n : Fin 17) : (s.setSp n).stack = s.stack := rfl
@[simp] theorem State.setSp_rpl (s : State) (n : Fin 17) : (s.setSp n).rpl = s.rpl := rfl
@[simp] theorem State.setSp_delay (s : State) (n : Fin 17) : (s.setSp n).delay = s.delay := rfl
@[simp] theorem State.setSp_sound (s : State) (n : Fin 17) : (s.setSp n).sound = s.sound := rfl
@[simp] theorem State.setSp_screen (s : State) (n : Fin 17) : (s.setSp n).screen = s.screen := rfl
@[simp] theorem State.setSp_hires (s : State) (n : Fin 17) : (s.setSp n).hires = s.hires := rfl
@[simp] theorem State.setSp_vblankWait (s : State) (n : Fin 17) : (s.setSp n).vblankWait = s.vblankWait := rfl
@[simp] theorem State.setSp_keys (s : State) (n : Fin 17) : (s.setSp n).keys = s.keys := rfl
@[simp] theorem State.setSp_profile (s : State) (n : Fin 17) : (s.setSp n).profile = s.profile := rfl
@[simp] theorem State.setSp_accCpu (s : State) (n : Fin 17) : (s.setSp n).accCpu = s.accCpu := rfl
@[simp] theorem State.setSp_accTimers (s : State) (n : Fin 17) : (s.setSp n).accTimers = s.accTimers := rfl
@[simp] theorem State.setSp_accDisplay (s : State) (n : Fin 17) : (s.setSp n).accDisplay = s.accDisplay := rfl
@[simp] theorem State.setSp_fault (s : State) (n : Fin 17) : (s.setSp n).fault = s.fault := rfl
@[simp] theorem State.setSp_params (s : State) (n : Fin 17) : (s.setSp n).params = s.params := rfl
@[simp] theorem State.setSp_draws (s : State) (n : Fin 17) : (s.setSp n).draws = s.draws := rfl
@[simp] theorem State.setSp_pending (s : State) (n : Fin 17) : (s.setSp n).pending = s.pending := rfl

@[simp] theorem State.setStack_mem (s : State) (st : Vector Word 16) : (s.setStack st).mem = s.mem := rfl
@[simp] theorem State.setStack_v (s : State) (st : Vector Word 16) : (s.setStack st).v = s.v := rfl
@[simp] theorem State.setStack_i (s : State) (st : Vector Word 16) : (s.setStack st).i = s.i := rfl
@[simp] theorem State.setStack_pc (s : State) (st : Vector Word 16) : (s.setStack st).pc = s.pc := rfl
@[simp] theorem State.setStack_sp (s : State) (st : Vector Word 16) : (s.setStack st).sp = s.sp := rfl
@[simp] theorem State.setStack_stack (s : State) (st : Vector Word 16) : (s.setStack st).stack = st := rfl
@[simp] theorem State.setStack_rpl (s : State) (st : Vector Word 16) : (s.setStack st).rpl = s.rpl := rfl
@[simp] theorem State.setStack_delay (s : State) (st : Vector Word 16) : (s.setStack st).delay = s.delay := rfl
@[simp] theorem State.setStack_sound (s : State) (st : Vector Word 16) : (s.setStack st).sound = s.sound := rfl
@[simp] theorem State.setStack_screen (s : State) (st : Vector Word 16) : (s.setStack st).screen = s.screen := rfl
@[simp] theorem State.setStack_hires (s : State) (st : Vector Word 16) : (s.setStack st).hires = s.hires := rfl
@[simp] theorem State.setStack_vblankWait (s : State) (st : Vector Word 16) : (s.setStack st).vblankWait = s.vblankWait := rfl
@[simp] theorem State.setStack_keys (s : State) (st : Vector Word 16) : (s.setStack st).keys = s.keys := rfl
@[simp] theorem State.setStack_profile (s : State) (st : Vector Word 16) : (s.setStack st).profile = s.profile := rfl
@[simp] theorem State.setStack_accCpu (s : State) (st : Vector Word 16) : (s.setStack st).accCpu = s.accCpu := rfl
@[simp] theorem State.setStack_accTimers (s : State) (st : Vector Word 16) : (s.setStack st).accTimers = s.accTimers := rfl
@[simp] theorem State.setStack_accDisplay (s : State) (st : Vector Word 16) : (s.setStack st).accDisplay = s.accDisplay := rfl
@[simp] theorem State.setStack_fault (s : State) (st : Vector Word 16) : (s.setStack st).fault = s.fault := rfl
@[simp] theorem State.setStack_params (s : State) (st : Vector Word 16) : (s.setStack st).params = s.params := rfl
@[simp] theorem State.setStack_draws (s : State) (st : Vector Word 16) : (s.setStack st).draws = s.draws := rfl
@[simp] theorem State.setStack_pending (s : State) (st : Vector Word 16) : (s.setStack st).pending = s.pending := rfl

@[simp] theorem State.setRpl_mem (s : State) (v : Vector Byte 16) : (s.setRpl v).mem = s.mem := rfl
@[simp] theorem State.setRpl_v (s : State) (v : Vector Byte 16) : (s.setRpl v).v = s.v := rfl
@[simp] theorem State.setRpl_i (s : State) (v : Vector Byte 16) : (s.setRpl v).i = s.i := rfl
@[simp] theorem State.setRpl_pc (s : State) (v : Vector Byte 16) : (s.setRpl v).pc = s.pc := rfl
@[simp] theorem State.setRpl_sp (s : State) (v : Vector Byte 16) : (s.setRpl v).sp = s.sp := rfl
@[simp] theorem State.setRpl_stack (s : State) (v : Vector Byte 16) : (s.setRpl v).stack = s.stack := rfl
@[simp] theorem State.setRpl_rpl (s : State) (v : Vector Byte 16) : (s.setRpl v).rpl = v := rfl
@[simp] theorem State.setRpl_delay (s : State) (v : Vector Byte 16) : (s.setRpl v).delay = s.delay := rfl
@[simp] theorem State.setRpl_sound (s : State) (v : Vector Byte 16) : (s.setRpl v).sound = s.sound := rfl
@[simp] theorem State.setRpl_screen (s : State) (v : Vector Byte 16) : (s.setRpl v).screen = s.screen := rfl
@[simp] theorem State.setRpl_hires (s : State) (v : Vector Byte 16) : (s.setRpl v).hires = s.hires := rfl
@[simp] theorem State.setRpl_vblankWait (s : State) (v : Vector Byte 16) : (s.setRpl v).vblankWait = s.vblankWait := rfl
@[simp] theorem State.setRpl_keys (s : State) (v : Vector Byte 16) : (s.setRpl v).keys = s.keys := rfl
@[simp] theorem State.setRpl_profile (s : State) (v : Vector Byte 16) : (s.setRpl v).profile = s.profile := rfl
@[simp] theorem State.setRpl_accCpu (s : State) (v : Vector Byte 16) : (s.setRpl v).accCpu = s.accCpu := rfl
@[simp] theorem State.setRpl_accTimers (s : State) (v : Vector Byte 16) : (s.setRpl v).accTimers = s.accTimers := rfl
@[simp] theorem State.setRpl_accDisplay (s : State) (v : Vector Byte 16) : (s.setRpl v).accDisplay = s.accDisplay := rfl
@[simp] theorem State.setRpl_fault (s : State) (v : Vector Byte 16) : (s.setRpl v).fault = s.fault := rfl
@[simp] theorem State.setRpl_params (s : State) (v : Vector Byte 16) : (s.setRpl v).params = s.params := rfl
@[simp] theorem State.setRpl_draws (s : State) (v : Vector Byte 16) : (s.setRpl v).draws = s.draws := rfl
@[simp] theorem State.setRpl_pending (s : State) (v : Vector Byte 16) : (s.setRpl v).pending = s.pending := rfl

@[simp] theorem State.setDelay_mem (s : State) (b : Byte) : (s.setDelay b).mem = s.mem := rfl
@[simp] theorem State.setDelay_v (s : State) (b : Byte) : (s.setDelay b).v = s.v := rfl
@[simp] theorem State.setDelay_i (s : State) (b : Byte) : (s.setDelay b).i = s.i := rfl
@[simp] theorem State.setDelay_pc (s : State) (b : Byte) : (s.setDelay b).pc = s.pc := rfl
@[simp] theorem State.setDelay_sp (s : State) (b : Byte) : (s.setDelay b).sp = s.sp := rfl
@[simp] theorem State.setDelay_stack (s : State) (b : Byte) : (s.setDelay b).stack = s.stack := rfl
@[simp] theorem State.setDelay_rpl (s : State) (b : Byte) : (s.setDelay b).rpl = s.rpl := rfl
@[simp] theorem State.setDelay_delay (s : State) (b : Byte) : (s.setDelay b).delay = b := rfl
@[simp] theorem State.setDelay_sound (s : State) (b : Byte) : (s.setDelay b).sound = s.sound := rfl
@[simp] theorem State.setDelay_screen (s : State) (b : Byte) : (s.setDelay b).screen = s.screen := rfl
@[simp] theorem State.setDelay_hires (s : State) (b : Byte) : (s.setDelay b).hires = s.hires := rfl
@[simp] theorem State.setDelay_vblankWait (s : State) (b : Byte) : (s.setDelay b).vblankWait = s.vblankWait := rfl
@[simp] theorem State.setDelay_keys (s : State) (b : Byte) : (s.setDelay b).keys = s.keys := rfl
@[simp] theorem State.setDelay_profile (s : State) (b : Byte) : (s.setDelay b).profile = s.profile := rfl
@[simp] theorem State.setDelay_accCpu (s : State) (b : Byte) : (s.setDelay b).accCpu = s.accCpu := rfl
@[simp] theorem State.setDelay_accTimers (s : State) (b : Byte) : (s.setDelay b).accTimers = s.accTimers := rfl
@[simp] theorem State.setDelay_accDisplay (s : State) (b : Byte) : (s.setDelay b).accDisplay = s.accDisplay := rfl
@[simp] theorem State.setDelay_fault (s : State) (b : Byte) : (s.setDelay b).fault = s.fault := rfl
@[simp] theorem State.setDelay_params (s : State) (b : Byte) : (s.setDelay b).params = s.params := rfl
@[simp] theorem State.setDelay_draws (s : State) (b : Byte) : (s.setDelay b).draws = s.draws := rfl
@[simp] theorem State.setDelay_pending (s : State) (b : Byte) : (s.setDelay b).pending = s.pending := rfl

@[simp] theorem State.setSound_mem (s : State) (b : Byte) : (s.setSound b).mem = s.mem := rfl
@[simp] theorem State.setSound_v (s : State) (b : Byte) : (s.setSound b).v = s.v := rfl
@[simp] theorem State.setSound_i (s : State) (b : Byte) : (s.setSound b).i = s.i := rfl
@[simp] theorem State.setSound_pc (s : State) (b : Byte) : (s.setSound b).pc = s.pc := rfl
@[simp] theorem State.setSound_sp (s : State) (b : Byte) : (s.setSound b).sp = s.sp := rfl
@[simp] theorem State.setSound_stack (s : State) (b : Byte) : (s.setSound b).stack = s.stack := rfl
@[simp] theorem State.setSound_rpl (s : State) (b : Byte) : (s.setSound b).rpl = s.rpl := rfl
@[simp] theorem State.setSound_delay (s : State) (b : Byte) : (s.setSound b).delay = s.delay := rfl
@[simp] theorem State.setSound_sound (s : State) (b : Byte) : (s.setSound b).sound = b := rfl
@[simp] theorem State.setSound_screen (s : State) (b : Byte) : (s.setSound b).screen = s.screen := rfl
@[simp] theorem State.setSound_hires (s : State) (b : Byte) : (s.setSound b).hires = s.hires := rfl
@[simp] theorem State.setSound_vblankWait (s : State) (b : Byte) : (s.setSound b).vblankWait = s.vblankWait := rfl
@[simp] theorem State.setSound_keys (s : State) (b : Byte) : (s.setSound b).keys = s.keys := rfl
@[simp] theorem State.setSound_profile (s : State) (b : Byte) : (s.setSound b).profile = s.profile := rfl
@[simp] theorem State.setSound_accCpu (s : State) (b : Byte) : (s.setSound b).accCpu = s.accCpu := rfl
@[simp] theorem State.setSound_accTimers (s : State) (b : Byte) : (s.setSound b).accTimers = s.accTimers := rfl
@[simp] theorem State.setSound_accDisplay (s : State) (b : Byte) : (s.setSound b).accDisplay = s.accDisplay := rfl
@[simp] theorem State.setSound_fault (s : State) (b : Byte) : (s.setSound b).fault = s.fault := rfl
@[simp] theorem State.setSound_params (s : State) (b : Byte) : (s.setSound b).params = s.params := rfl
@[simp] theorem State.setSound_draws (s : State) (b : Byte) : (s.setSound b).draws = s.draws := rfl
@[simp] theorem State.setSound_pending (s : State) (b : Byte) : (s.setSound b).pending = s.pending := rfl

@[simp] theorem State.setScreen_mem (s : State) (scr : Screen) : (s.setScreen scr).mem = s.mem := rfl
@[simp] theorem State.setScreen_v (s : State) (scr : Screen) : (s.setScreen scr).v = s.v := rfl
@[simp] theorem State.setScreen_i (s : State) (scr : Screen) : (s.setScreen scr).i = s.i := rfl
@[simp] theorem State.setScreen_pc (s : State) (scr : Screen) : (s.setScreen scr).pc = s.pc := rfl
@[simp] theorem State.setScreen_sp (s : State) (scr : Screen) : (s.setScreen scr).sp = s.sp := rfl
@[simp] theorem State.setScreen_stack (s : State) (scr : Screen) : (s.setScreen scr).stack = s.stack := rfl
@[simp] theorem State.setScreen_rpl (s : State) (scr : Screen) : (s.setScreen scr).rpl = s.rpl := rfl
@[simp] theorem State.setScreen_delay (s : State) (scr : Screen) : (s.setScreen scr).delay = s.delay := rfl
@[simp] theorem State.setScreen_sound (s : State) (scr : Screen) : (s.setScreen scr).sound = s.sound := rfl
@[simp] theorem State.setScreen_screen (s : State) (scr : Screen) : (s.setScreen scr).screen = scr := rfl
@[simp] theorem State.setScreen_hires (s : State) (scr : Screen) : (s.setScreen scr).hires = s.hires := rfl
@[simp] theorem State.setScreen_vblankWait (s : State) (scr : Screen) : (s.setScreen scr).vblankWait = s.vblankWait := rfl
@[simp] theorem State.setScreen_keys (s : State) (scr : Screen) : (s.setScreen scr).keys = s.keys := rfl
@[simp] theorem State.setScreen_profile (s : State) (scr : Screen) : (s.setScreen scr).profile = s.profile := rfl
@[simp] theorem State.setScreen_accCpu (s : State) (scr : Screen) : (s.setScreen scr).accCpu = s.accCpu := rfl
@[simp] theorem State.setScreen_accTimers (s : State) (scr : Screen) : (s.setScreen scr).accTimers = s.accTimers := rfl
@[simp] theorem State.setScreen_accDisplay (s : State) (scr : Screen) : (s.setScreen scr).accDisplay = s.accDisplay := rfl
@[simp] theorem State.setScreen_fault (s : State) (scr : Screen) : (s.setScreen scr).fault = s.fault := rfl
@[simp] theorem State.setScreen_params (s : State) (scr : Screen) : (s.setScreen scr).params = s.params := rfl
@[simp] theorem State.setScreen_draws (s : State) (scr : Screen) : (s.setScreen scr).draws = s.draws := rfl
@[simp] theorem State.setScreen_pending (s : State) (scr : Screen) : (s.setScreen scr).pending = s.pending := rfl

@[simp] theorem State.setHires_mem (s : State) (b : Bool) : (s.setHires b).mem = s.mem := rfl
@[simp] theorem State.setHires_v (s : State) (b : Bool) : (s.setHires b).v = s.v := rfl
@[simp] theorem State.setHires_i (s : State) (b : Bool) : (s.setHires b).i = s.i := rfl
@[simp] theorem State.setHires_pc (s : State) (b : Bool) : (s.setHires b).pc = s.pc := rfl
@[simp] theorem State.setHires_sp (s : State) (b : Bool) : (s.setHires b).sp = s.sp := rfl
@[simp] theorem State.setHires_stack (s : State) (b : Bool) : (s.setHires b).stack = s.stack := rfl
@[simp] theorem State.setHires_rpl (s : State) (b : Bool) : (s.setHires b).rpl = s.rpl := rfl
@[simp] theorem State.setHires_delay (s : State) (b : Bool) : (s.setHires b).delay = s.delay := rfl
@[simp] theorem State.setHires_sound (s : State) (b : Bool) : (s.setHires b).sound = s.sound := rfl
@[simp] theorem State.setHires_screen (s : State) (b : Bool) : (s.setHires b).screen = s.screen := rfl
@[simp] theorem State.setHires_hires (s : State) (b : Bool) : (s.setHires b).hires = b := rfl
@[simp] theorem State.setHires_vblankWait (s : State) (b : Bool) : (s.setHires b).vblankWait = s.vblankWait := rfl
@[simp] theorem State.setHires_keys (s : State) (b : Bool) : (s.setHires b).keys = s.keys := rfl
@[simp] theorem State.setHires_profile (s : State) (b : Bool) : (s.setHires b).profile = s.profile := rfl
@[simp] theorem State.setHires_accCpu (s : State) (b : Bool) : (s.setHires b).accCpu = s.accCpu := rfl
@[simp] theorem State.setHires_accTimers (s : State) (b : Bool) : (s.setHires b).accTimers = s.accTimers := rfl
@[simp] theorem State.setHires_accDisplay (s : State) (b : Bool) : (s.setHires b).accDisplay = s.accDisplay := rfl
@[simp] theorem State.setHires_fault (s : State) (b : Bool) : (s.setHires b).fault = s.fault := rfl
@[simp] theorem State.setHires_params (s : State) (b : Bool) : (s.setHires b).params = s.params := rfl
@[simp] theorem State.setHires_draws (s : State) (b : Bool) : (s.setHires b).draws = s.draws := rfl
@[simp] theorem State.setHires_pending (s : State) (b : Bool) : (s.setHires b).pending = s.pending := rfl

@[simp] theorem State.setLatch_mem (s : State) (b : Bool) : (s.setLatch b).mem = s.mem := rfl
@[simp] theorem State.setLatch_v (s : State) (b : Bool) : (s.setLatch b).v = s.v := rfl
@[simp] theorem State.setLatch_i (s : State) (b : Bool) : (s.setLatch b).i = s.i := rfl
@[simp] theorem State.setLatch_pc (s : State) (b : Bool) : (s.setLatch b).pc = s.pc := rfl
@[simp] theorem State.setLatch_sp (s : State) (b : Bool) : (s.setLatch b).sp = s.sp := rfl
@[simp] theorem State.setLatch_stack (s : State) (b : Bool) : (s.setLatch b).stack = s.stack := rfl
@[simp] theorem State.setLatch_rpl (s : State) (b : Bool) : (s.setLatch b).rpl = s.rpl := rfl
@[simp] theorem State.setLatch_delay (s : State) (b : Bool) : (s.setLatch b).delay = s.delay := rfl
@[simp] theorem State.setLatch_sound (s : State) (b : Bool) : (s.setLatch b).sound = s.sound := rfl
@[simp] theorem State.setLatch_screen (s : State) (b : Bool) : (s.setLatch b).screen = s.screen := rfl
@[simp] theorem State.setLatch_hires (s : State) (b : Bool) : (s.setLatch b).hires = s.hires := rfl
@[simp] theorem State.setLatch_vblankWait (s : State) (b : Bool) : (s.setLatch b).vblankWait = b := rfl
@[simp] theorem State.setLatch_keys (s : State) (b : Bool) : (s.setLatch b).keys = s.keys := rfl
@[simp] theorem State.setLatch_profile (s : State) (b : Bool) : (s.setLatch b).profile = s.profile := rfl
@[simp] theorem State.setLatch_accCpu (s : State) (b : Bool) : (s.setLatch b).accCpu = s.accCpu := rfl
@[simp] theorem State.setLatch_accTimers (s : State) (b : Bool) : (s.setLatch b).accTimers = s.accTimers := rfl
@[simp] theorem State.setLatch_accDisplay (s : State) (b : Bool) : (s.setLatch b).accDisplay = s.accDisplay := rfl
@[simp] theorem State.setLatch_fault (s : State) (b : Bool) : (s.setLatch b).fault = s.fault := rfl
@[simp] theorem State.setLatch_params (s : State) (b : Bool) : (s.setLatch b).params = s.params := rfl
@[simp] theorem State.setLatch_draws (s : State) (b : Bool) : (s.setLatch b).draws = s.draws := rfl
@[simp] theorem State.setLatch_pending (s : State) (b : Bool) : (s.setLatch b).pending = s.pending := rfl

@[simp] theorem State.setKeys_mem (s : State) (ks : Vector Bool 16) : (s.setKeys ks).mem = s.mem := rfl
@[simp] theorem State.setKeys_v (s : State) (ks : Vector Bool 16) : (s.setKeys ks).v = s.v := rfl
@[simp] theorem State.setKeys_i (s : State) (ks : Vector Bool 16) : (s.setKeys ks).i = s.i := rfl
@[simp] theorem State.setKeys_pc (s : State) (ks : Vector Bool 16) : (s.setKeys ks).pc = s.pc := rfl
@[simp] theorem State.setKeys_sp (s : State) (ks : Vector Bool 16) : (s.setKeys ks).sp = s.sp := rfl
@[simp] theorem State.setKeys_stack (s : State) (ks : Vector Bool 16) : (s.setKeys ks).stack = s.stack := rfl
@[simp] theorem State.setKeys_rpl (s : State) (ks : Vector Bool 16) : (s.setKeys ks).rpl = s.rpl := rfl
@[simp] theorem State.setKeys_delay (s : State) (ks : Vector Bool 16) : (s.setKeys ks).delay = s.delay := rfl
@[simp] theorem State.setKeys_sound (s : State) (ks : Vector Bool 16) : (s.setKeys ks).sound = s.sound := rfl
@[simp] theorem State.setKeys_screen (s : State) (ks : Vector Bool 16) : (s.setKeys ks).screen = s.screen := rfl
@[simp] theorem State.setKeys_hires (s : State) (ks : Vector Bool 16) : (s.setKeys ks).hires = s.hires := rfl
@[simp] theorem State.setKeys_vblankWait (s : State) (ks : Vector Bool 16) : (s.setKeys ks).vblankWait = s.vblankWait := rfl
@[simp] theorem State.setKeys_keys (s : State) (ks : Vector Bool 16) : (s.setKeys ks).keys = ks := rfl
@[simp] theorem State.setKeys_profile (s : State) (ks : Vector Bool 16) : (s.setKeys ks).profile = s.profile := rfl
@[simp] theorem State.setKeys_accCpu (s : State) (ks : Vector Bool 16) : (s.setKeys ks).accCpu = s.accCpu := rfl
@[simp] theorem State.setKeys_accTimers (s : State) (ks : Vector Bool 16) : (s.setKeys ks).accTimers = s.accTimers := rfl
@[simp] theorem State.setKeys_accDisplay (s : State) (ks : Vector Bool 16) : (s.setKeys ks).accDisplay = s.accDisplay := rfl
@[simp] theorem State.setKeys_fault (s : State) (ks : Vector Bool 16) : (s.setKeys ks).fault = s.fault := rfl
@[simp] theorem State.setKeys_params (s : State) (ks : Vector Bool 16) : (s.setKeys ks).params = s.params := rfl
@[simp] theorem State.setKeys_draws (s : State) (ks : Vector Bool 16) : (s.setKeys ks).draws = s.draws := rfl
@[simp] theorem State.setKeys_pending (s : State) (ks : Vector Bool 16) : (s.setKeys ks).pending = s.pending := rfl

@[simp] theorem State.setProfile_mem (s : State) (p : Profile) : (s.setProfile p).mem = s.mem := rfl
@[simp] theorem State.setProfile_v (s : State) (p : Profile) : (s.setProfile p).v = s.v := rfl
@[simp] theorem State.setProfile_i (s : State) (p : Profile) : (s.setProfile p).i = s.i := rfl
@[simp] theorem State.setProfile_pc (s : State) (p : Profile) : (s.setProfile p).pc = s.pc := rfl
@[simp] theorem State.setProfile_sp (s : State) (p : Profile) : (s.setProfile p).sp = s.sp := rfl
@[simp] theorem State.setProfile_stack (s : State) (p : Profile) : (s.setProfile p).stack = s.stack := rfl
@[simp] theorem State.setProfile_rpl (s : State) (p : Profile) : (s.setProfile p).rpl = s.rpl := rfl
@[simp] theorem State.setProfile_delay (s : State) (p : Profile) : (s.setProfile p).delay = s.delay := rfl
@[simp] theorem State.setProfile_sound (s : State) (p : Profile) : (s.setProfile p).sound = s.sound := rfl
@[simp] theorem State.setProfile_screen (s : State) (p : Profile) : (s.setProfile p).screen = s.screen := rfl
@[simp] theorem State.setProfile_hires (s : State) (p : Profile) : (s.setProfile p).hires = s.hires := rfl
@[simp] theorem State.setProfile_vblankWait (s : State) (p : Profile) : (s.setProfile p).vblankWait = s.vblankWait := rfl
@[simp] theorem State.setProfile_keys (s : State) (p : Profile) : (s.setProfile p).keys = s.keys := rfl
@[simp] theorem State.setProfile_profile (s : State) (p : Profile) : (s.setProfile p).profile = p := rfl
@[simp] theorem State.setProfile_accCpu (s : State) (p : Profile) : (s.setProfile p).accCpu = s.accCpu := rfl
@[simp] theorem State.setProfile_accTimers (s : State) (p : Profile) : (s.setProfile p).accTimers = s.accTimers := rfl
@[simp] theorem State.setProfile_accDisplay (s : State) (p : Profile) : (s.setProfile p).accDisplay = s.accDisplay := rfl
@[simp] theorem State.setProfile_fault (s : State) (p : Profile) : (s.setProfile p).fault = s.fault := rfl
@[simp] theorem State.setProfile_params (s : State) (p : Profile) : (s.setProfile p).params = s.params := rfl
@[simp] theorem State.setProfile_draws (s : State) (p : Profile) : (s.setProfile p).draws = s.draws := rfl
@[simp] theorem State.setProfile_pending (s : State) (p : Profile) : (s.setProfile p).pending = s.pending := rfl

@[simp] theorem State.setAccs_mem (s : State) (c t d : Rat) : (s.setAccs c t d).mem = s.mem := rfl
@[simp] theorem State.setAccs_v (s : State) (c t d : Rat) : (s.setAccs c t d).v = s.v := rfl
@[simp] theorem State.setAccs_i (s : State) (c t d : Rat) : (s.setAccs c t d).i = s.i := rfl
@[simp] theorem State.setAccs_pc (s : State) (c t d : Rat) : (s.setAccs c t d).pc = s.pc := rfl
@[simp] theorem State.setAccs_sp (s : State) (c t d : Rat) : (s.setAccs c t d).sp = s.sp := rfl
@[simp] theorem State.setAccs_stack (s : State) (c t d : Rat) : (s.setAccs c t d).stack = s.stack := rfl
@[simp] theorem State.setAccs_rpl (s : State) (c t d : Rat) : (s.setAccs c t d).rpl = s.rpl := rfl
@[simp] theorem State.setAccs_delay (s : State) (c t d : Rat) : (s.setAccs c t d).delay = s.delay := rfl
@[simp] theorem State.setAccs_sound (s : State) (c t d : Rat) : (s.setAccs c t d).sound = s.sound := rfl
@[simp] theorem State.setAccs_screen (s : State) (c t d : Rat) : (s.setAccs c t d).screen = s.screen := rfl
@[simp] theorem State.setAccs_hires (s : State) (c t d : Rat) : (s.setAccs c t d).hires = s.hires := rfl
@[simp] theorem State.setAccs_vblankWait (s : State) (c t d : Rat) : (s.setAccs c t d).vblankWait = s.vblankWait := rfl
@[simp] theorem State.setAccs_keys (s : State) (c t d : Rat) : (s.setAccs c t d).keys = s.keys := rfl
@[simp] theorem State.setAccs_profile (s : State) (c t d : Rat) : (s.setAccs c t d).profile = s.profile := rfl
@[simp] theorem State.setAccs_accCpu (s : State) (c t d : Rat) : (s.setAccs c t d).accCpu = c := rfl
@[simp] theorem State.setAccs_accTimers (s : State) (c t d : Rat) : (s.setAccs c t d).accTimers = t := rfl
@[simp] theorem State.setAccs_accDisplay (s : State) (c t d : Rat) : (s.setAccs c t d).accDisplay = d := rfl
@[simp] theorem State.setAccs_fault (s : State) (c t d : Rat) : (s.setAccs c t d).fault = s.fault := rfl
@[simp] theorem State.setAccs_params (s : State) (c t d : Rat) : (s.setAccs c t d).params = s.params := rfl
@[simp] theorem State.setAccs_draws (s : State) (c t d : Rat) : (s.setAccs c t d).draws = s.draws := rfl
@[simp] theorem State.setAccs_pending (s : State) (c t d : Rat) : (s.setAccs c t d).pending = s.pending := rfl

@[simp] theorem State.setFault_mem (s : State) (f : Option FaultStatus) : (s.setFault f).mem = s.mem := rfl
@[simp] theorem State.setFault_v (s : State) (f : Option FaultStatus) : (s.setFault f).v = s.v := rfl
@[simp] theorem State.setFault_i (s : State) (f : Option FaultStatus) : (s.setFault f).i = s.i := rfl
@[simp] theorem State.setFault_pc (s : State) (f : Option FaultStatus) : (s.setFault f).pc = s.pc := rfl
@[simp] theorem State.setFault_sp (s : State) (f : Option FaultStatus) : (s.setFault f).sp = s.sp := rfl
@[simp] theorem State.setFault_stack (s : State) (f : Option FaultStatus) : (s.setFault f).stack = s.stack := rfl
@[simp] theorem State.setFault_rpl (s : State) (f : Option FaultStatus) : (s.setFault f).rpl = s.rpl := rfl
@[simp] theorem State.setFault_delay (s : State) (f : Option FaultStatus) : (s.setFault f).delay = s.delay := rfl
@[simp] theorem State.setFault_sound (s : State) (f : Option FaultStatus) : (s.setFault f).sound = s.sound := rfl
@[simp] theorem State.setFault_screen (s : State) (f : Option FaultStatus) : (s.setFault f).screen = s.screen := rfl
@[simp] theorem State.setFault_hires (s : State) (f : Option FaultStatus) : (s.setFault f).hires = s.hires := rfl
@[simp] theorem State.setFault_vblankWait (s : State) (f : Option FaultStatus) : (s.setFault f).vblankWait = s.vblankWait := rfl
@[simp] theorem State.setFault_keys (s : State) (f : Option FaultStatus) : (s.setFault f).keys = s.keys := rfl
@[simp] theorem State.setFault_profile (s : State) (f : Option FaultStatus) : (s.setFault f).profile = s.profile := rfl
@[simp] theorem State.setFault_accCpu (s : State) (f : Option FaultStatus) : (s.setFault f).accCpu = s.accCpu := rfl
@[simp] theorem State.setFault_accTimers (s : State) (f : Option FaultStatus) : (s.setFault f).accTimers = s.accTimers := rfl
@[simp] theorem State.setFault_accDisplay (s : State) (f : Option FaultStatus) : (s.setFault f).accDisplay = s.accDisplay := rfl
@[simp] theorem State.setFault_fault (s : State) (f : Option FaultStatus) : (s.setFault f).fault = f := rfl
@[simp] theorem State.setFault_params (s : State) (f : Option FaultStatus) : (s.setFault f).params = s.params := rfl
@[simp] theorem State.setFault_draws (s : State) (f : Option FaultStatus) : (s.setFault f).draws = s.draws := rfl
@[simp] theorem State.setFault_pending (s : State) (f : Option FaultStatus) : (s.setFault f).pending = s.pending := rfl

@[simp] theorem State.setDraws_mem (s : State) (n : Nat) : (s.setDraws n).mem = s.mem := rfl
@[simp] theorem State.setDraws_v (s : State) (n : Nat) : (s.setDraws n).v = s.v := rfl
@[simp] theorem State.setDraws_i (s : State) (n : Nat) : (s.setDraws n).i = s.i := rfl
@[simp] theorem State.setDraws_pc (s : State) (n : Nat) : (s.setDraws n).pc = s.pc := rfl
@[simp] theorem State.setDraws_sp (s : State) (n : Nat) : (s.setDraws n).sp = s.sp := rfl
@[simp] theorem State.setDraws_stack (s : State) (n : Nat) : (s.setDraws n).stack = s.stack := rfl
@[simp] theorem State.setDraws_rpl (s : State) (n : Nat) : (s.setDraws n).rpl = s.rpl := rfl
@[simp] theorem State.setDraws_delay (s : State) (n : Nat) : (s.setDraws n).delay = s.delay := rfl
@[simp] theorem State.setDraws_sound (s : State) (n : Nat) : (s.setDraws n).sound = s.sound := rfl
@[simp] theorem State.setDraws_screen (s : State) (n : Nat) : (s.setDraws n).screen = s.screen := rfl
@[simp] theorem State.setDraws_hires (s : State) (n : Nat) : (s.setDraws n).hires = s.hires := rfl
@[simp] theorem State.setDraws_vblankWait (s : State) (n : Nat) : (s.setDraws n).vblankWait = s.vblankWait := rfl
@[simp] theorem State.setDraws_keys (s : State) (n : Nat) : (s.setDraws n).keys = s.keys := rfl
@[simp] theorem State.setDraws_profile (s : State) (n : Nat) : (s.setDraws n).profile = s.profile := rfl
@[simp] theorem State.setDraws_accCpu (s : State) (n : Nat) : (s.setDraws n).accCpu = s.accCpu := rfl
@[simp] theorem State.setDraws_accTimers (s : State) (n : Nat) : (s.setDraws n).accTimers = s.accTimers := rfl
@[simp] theorem State.setDraws_accDisplay (s : State) (n : Nat) : (s.setDraws n).accDisplay = s.accDisplay := rfl
@[simp] theorem State.setDraws_fault (s : State) (n : Nat) : (s.setDraws n).fault = s.fault := rfl
@[simp] theorem State.setDraws_params (s : State) (n : Nat) : (s.setDraws n).params = s.params := rfl
@[simp] theorem State.setDraws_draws (s : State) (n : Nat) : (s.setDraws n).draws = n := rfl
@[simp] theorem State.setDraws_pending (s : State) (n : Nat) : (s.setDraws n).pending = s.pending := rfl

@[simp] theorem State.setPending_mem (s : State) (ops : List HostOp) : (s.setPending ops).mem = s.mem := rfl
@[simp] theorem State.setPending_v (s : State) (ops : List HostOp) : (s.setPending ops).v = s.v := rfl
@[simp] theorem State.setPending_i (s : State) (ops : List HostOp) : (s.setPending ops).i = s.i := rfl
@[simp] theorem State.setPending_pc (s : State) (ops : List HostOp) : (s.setPending ops).pc = s.pc := rfl
@[simp] theorem State.setPending_sp (s : State) (ops : List HostOp) : (s.setPending ops).sp = s.sp := rfl
@[simp] theorem State.setPending_stack (s : State) (ops : List HostOp) : (s.setPending ops).stack = s.stack := rfl
@[simp] theorem State.setPending_rpl (s : State) (ops : List HostOp) : (s.setPending ops).rpl = s.rpl := rfl
@[simp] theorem State.setPending_delay (s : State) (ops : List HostOp) : (s.setPending ops).delay = s.delay := rfl
@[simp] theorem State.setPending_sound (s : State) (ops : List HostOp) : (s.setPending ops).sound = s.sound := rfl
@[simp] theorem State.setPending_screen (s : State) (ops : List HostOp) : (s.setPending ops).screen = s.screen := rfl
@[simp] theorem State.setPending_hires (s : State) (ops : List HostOp) : (s.setPending ops).hires = s.hires := rfl
@[simp] theorem State.setPending_vblankWait (s : State) (ops : List HostOp) : (s.setPending ops).vblankWait = s.vblankWait := rfl
@[simp] theorem State.setPending_keys (s : State) (ops : List HostOp) : (s.setPending ops).keys = s.keys := rfl
@[simp] theorem State.setPending_profile (s : State) (ops : List HostOp) : (s.setPending ops).profile = s.profile := rfl
@[simp] theorem State.setPending_accCpu (s : State) (ops : List HostOp) : (s.setPending ops).accCpu = s.accCpu := rfl
@[simp] theorem State.setPending_accTimers (s : State) (ops : List HostOp) : (s.setPending ops).accTimers = s.accTimers := rfl
@[simp] theorem State.setPending_accDisplay (s : State) (ops : List HostOp) : (s.setPending ops).accDisplay = s.accDisplay := rfl
@[simp] theorem State.setPending_fault (s : State) (ops : List HostOp) : (s.setPending ops).fault = s.fault := rfl
@[simp] theorem State.setPending_params (s : State) (ops : List HostOp) : (s.setPending ops).params = s.params := rfl
@[simp] theorem State.setPending_draws (s : State) (ops : List HostOp) : (s.setPending ops).draws = s.draws := rfl
@[simp] theorem State.setPending_pending (s : State) (ops : List HostOp) : (s.setPending ops).pending = ops := rfl

/-! Writing one register, or a range of registers, touches no other field. -/

@[simp] theorem State.setV_mem (s : State) (x : RegIx) (b : Byte) : (s.setV x b).mem = s.mem := rfl
@[simp] theorem State.setRegsUpTo_mem (s : State) (x : RegIx) (g : RegIx → Byte) : (s.setRegsUpTo x g).mem = s.mem := rfl
@[simp] theorem State.setV_i (s : State) (x : RegIx) (b : Byte) : (s.setV x b).i = s.i := rfl
@[simp] theorem State.setRegsUpTo_i (s : State) (x : RegIx) (g : RegIx → Byte) : (s.setRegsUpTo x g).i = s.i := rfl
@[simp] theorem State.setV_pc (s : State) (x : RegIx) (b : Byte) : (s.setV x b).pc = s.pc := rfl
@[simp] theorem State.setRegsUpTo_pc (s : State) (x : RegIx) (g : RegIx → Byte) : (s.setRegsUpTo x g).pc = s.pc := rfl
@[simp] theorem State.setV_sp (s : State) (x : RegIx) (b : Byte) : (s.setV x b).sp = s.sp := rfl
@[simp] theorem State.setRegsUpTo_sp (s : State) (x : RegIx) (g : RegIx → Byte) : (s.setRegsUpTo x g).sp = s.sp := rfl
@[simp] theorem State.setV_stack (s : State) (x : RegIx) (b : Byte) : (s.setV x b).stack = s.stack := rfl
@[simp] theorem State.setRegsUpTo_stack (s : State) (x : RegIx) (g : RegIx → Byte) : (s.setRegsUpTo x g).stack = s.stack := rfl
@[simp] theorem State.setV_rpl (s : State) (x : RegIx) (b : Byte) : (s.setV x b).rpl = s.rpl := rfl
@[simp] theorem State.setRegsUpTo_rpl (s : State) (x : RegIx) (g : RegIx → Byte) : (s.setRegsUpTo x g).rpl = s.rpl := rfl
@[simp] theorem State.setV_delay (s : State) (x : RegIx) (b : Byte) : (s.setV x b).delay = s.delay := rfl
@[simp] theorem State.setRegsUpTo_delay (s : State) (x : RegIx) (g : RegIx → Byte) : (s.setRegsUpTo x g).delay = s.delay := rfl
@[simp] theorem State.setV_sound (s : State) (x : RegIx) (b : Byte) : (s.setV x b).sound = s.sound := rfl
@[simp] theorem State.setRegsUpTo_sound (s : State) (x : RegIx) (g : RegIx → Byte) : (s.setRegsUpTo x g).sound = s.sound := rfl
@[simp] theorem State.setV_screen (s : State) (x : RegIx) (b : Byte) : (s.setV x b).screen = s.screen := rfl
@[simp] theorem State.setRegsUpTo_screen (s : State) (x : RegIx) (g : RegIx → Byte) : (s.setRegsUpTo x g).screen = s.screen := rfl
@[simp] theorem State.setV_hires (s : State) (x : RegIx) (b : Byte) : (s.setV x b).hires = s.hires := rfl
@[simp] theorem State.setRegsUpTo_hires (s : State) (x : RegIx) (g : RegIx → Byte) : (s.setRegsUpTo x g).hires = s.hires := rfl
@[simp] theorem State.setV_vblankWait (s : State) (x : RegIx) (b : Byte) : (s.setV x b).vblankWait = s.vblankWait := rfl
@[simp] theorem State.setRegsUpTo_vblankWait (s : State) (x : RegIx) (g : RegIx → Byte) : (s.setRegsUpTo x g).vblankWait = s.vblankWait := rfl
@[simp] theorem State.setV_keys (s : State) (x : RegIx) (b : Byte) : (s.setV x b).keys = s.keys := rfl
@[simp] theorem State.setRegsUpTo_keys (s : State) (x : RegIx) (g : RegIx → Byte) : (s.setRegsUpTo x g).keys = s.keys := rfl
@[simp] theorem State.setV_profile (s : State) (x : RegIx) (b : Byte) : (s.setV x b).profile = s.profile := rfl
@[simp] theorem State.setRegsUpTo_profile (s : State) (x : RegIx) (g : RegIx → Byte) : (s.setRegsUpTo x g).profile = s.profile := rfl
@[simp] theorem State.setV_accCpu (s : State) (x : RegIx) (b : Byte) : (s.setV x b).accCpu = s.accCpu := rfl
@[simp] theorem State.setRegsUpTo_accCpu (s : State) (x : RegIx) (g : RegIx → Byte) : (s.setRegsUpTo x g).accCpu = s.accCpu := rfl
@[simp] theorem State.setV_accTimers (s : State) (x : RegIx) (b : Byte) : (s.setV x b).accTimers = s.accTimers := rfl
@[simp] theorem State.setRegsUpTo_accTimers (s : State) (x : RegIx) (g : RegIx → Byte) : (s.setRegsUpTo x g).accTimers = s.accTimers := rfl
@[simp] theorem State.setV_accDisplay (s : State) (x : RegIx) (b : Byte) : (s.setV x b).accDisplay = s.accDisplay := rfl
@[simp] theorem State.setRegsUpTo_accDisplay (s : State) (x : RegIx) (g : RegIx → Byte) : (s.setRegsUpTo x g).accDisplay = s.accDisplay := rfl
@[simp] theorem State.setV_fault (s : State) (x : RegIx) (b : Byte) : (s.setV x b).fault = s.fault := rfl
@[simp] theorem State.setRegsUpTo_fault (s : State) (x : RegIx) (g : RegIx → Byte) : (s.setRegsUpTo x g).fault = s.fault := rfl
@[simp] theorem State.setV_params (s : State) (x : RegIx) (b : Byte) : (s.setV x b).params = s.params := rfl
@[simp] theorem State.setRegsUpTo_params (s : State) (x : RegIx) (g : RegIx → Byte) : (s.setRegsUpTo x g).params = s.params := rfl
@[simp] theorem State.setV_draws (s : State) (x : RegIx) (b : Byte) : (s.setV x b).draws = s.draws := rfl
@[simp] theorem State.setRegsUpTo_draws (s : State) (x : RegIx) (g : RegIx → Byte) : (s.setRegsUpTo x g).draws = s.draws := rfl
@[simp] theorem State.setV_pending (s : State) (x : RegIx) (b : Byte) : (s.setV x b).pending = s.pending := rfl
@[simp] theorem State.setRegsUpTo_pending (s : State) (x : RegIx) (g : RegIx → Byte) : (s.setRegsUpTo x g).pending = s.pending := rfl

/-! Storing bytes touches no other field. -/

@[simp] theorem State.store_v (s : State) (a : Nat) (bs : List Byte) : (s.store a bs).v = s.v := rfl
@[simp] theorem State.store_i (s : State) (a : Nat) (bs : List Byte) : (s.store a bs).i = s.i := rfl
@[simp] theorem State.store_pc (s : State) (a : Nat) (bs : List Byte) : (s.store a bs).pc = s.pc := rfl
@[simp] theorem State.store_sp (s : State) (a : Nat) (bs : List Byte) : (s.store a bs).sp = s.sp := rfl
@[simp] theorem State.store_stack (s : State) (a : Nat) (bs : List Byte) : (s.store a bs).stack = s.stack := rfl
@[simp] theorem State.store_rpl (s : State) (a : Nat) (bs : List Byte) : (s.store a bs).rpl = s.rpl := rfl
@[simp] theorem State.store_delay (s : State) (a : Nat) (bs : List Byte) : (s.store a bs).delay = s.delay := rfl
@[simp] theorem State.store_sound (s : State) (a : Nat) (bs : List Byte) : (s.store a bs).sound = s.sound := rfl
@[simp] theorem State.store_screen (s : State) (a : Nat) (bs : List Byte) : (s.store a bs).screen = s.screen := rfl
@[simp] theorem State.store_hires (s : State) (a : Nat) (bs : List Byte) : (s.store a bs).hires = s.hires := rfl
@[simp] theorem State.store_vblankWait (s : State) (a : Nat) (bs : List Byte) : (s.store a bs).vblankWait = s.vblankWait := rfl
@[simp] theorem State.store_keys (s : State) (a : Nat) (bs : List Byte) : (s.store a bs).keys = s.keys := rfl
@[simp] theorem State.store_profile (s : State) (a : Nat) (bs : List Byte) : (s.store a bs).profile = s.profile := rfl
@[simp] theorem State.store_accCpu (s : State) (a : Nat) (bs : List Byte) : (s.store a bs).accCpu = s.accCpu := rfl
@[simp] theorem State.store_accTimers (s : State) (a : Nat) (bs : List Byte) : (s.store a bs).accTimers = s.accTimers := rfl
@[simp] theorem State.store_accDisplay (s : State) (a : Nat) (bs : List Byte) : (s.store a bs).accDisplay = s.accDisplay := rfl
@[simp] theorem State.store_fault (s : State) (a : Nat) (bs : List Byte) : (s.store a bs).fault = s.fault := rfl
@[simp] theorem State.store_params (s : State) (a : Nat) (bs : List Byte) : (s.store a bs).params = s.params := rfl
@[simp] theorem State.store_draws (s : State) (a : Nat) (bs : List Byte) : (s.store a bs).draws = s.draws := rfl
@[simp] theorem State.store_pending (s : State) (a : Nat) (bs : List Byte) : (s.store a bs).pending = s.pending := rfl

/-! Registers read after an update of something else. -/

@[simp] theorem State.getV_store (s : State) (a : Nat) (bs : List Byte) (k : RegIx) : (s.store a bs).getV k = s.getV k := rfl
@[simp] theorem State.getV_setMem (s : State) (m : Memory) (k : RegIx) : (s.setMem m).getV k = s.getV k := rfl
@[simp] theorem State.getV_setI (s : State) (w : Word) (k : RegIx) : (s.setI w).getV k = s.getV k := rfl
@[simp] theorem State.getV_setPc (s : State) (w : Word) (k : RegIx) : (s.setPc w).getV k = s.getV k := rfl
@[simp] theorem State.getV_setSp (s : State) (n : Fin 17) (k : RegIx) : (s.setSp n).getV k = s.getV k := rfl
@[simp] theorem State.getV_setStack (s : State) (st : Vector Word 16) (k : RegIx) : (s.setStack st).getV k = s.getV k := rfl
@[simp] theorem State.getV_setRpl (s : State) (v : Vector Byte 16) (k : RegIx) : (s.setRpl v).getV k = s.getV k := rfl
@[simp] theorem State.getV_setDelay (s : State) (b : Byte) (k : RegIx) : (s.setDelay b).getV k = s.getV k := rfl
@[simp] theorem State.getV_setSound (s : State) (b : Byte) (k : RegIx) : (s.setSound b).getV k = s.getV k := rfl
@[simp] theorem State.getV_setScreen (s : State) (scr : Screen) (k : RegIx) : (s.setScreen scr).getV k = s.getV k := rfl
@[simp] theorem State.getV_setHires (s : State) (b : Bool) (k : RegIx) : (s.setHires b).getV k = s.getV k := rfl
@[simp] theorem State.getV_setLatch (s : State) (b : Bool) (k : RegIx) : (s.setLatch b).getV k = s.getV k := rfl
@[simp] theorem State.getV_setKeys (s : State) (ks : Vector Bool 16) (k : RegIx) : (s.setKeys ks).getV k = s.getV k := rfl
@[simp] theorem State.getV_setProfile (s : State) (p : Profile) (k : RegIx) : (s.setProfile p).getV k = s.getV k := rfl
@[simp] theorem State.getV_setAccs (s : State) (c t d : Rat) (k : RegIx) : (s.setAccs c t d).getV k = s.getV k := rfl
@[simp] theorem State.getV_setFault (s : State) (f : Option FaultStatus) (k : RegIx) : (s.setFault f).getV k = s.getV k := rfl
@[simp] theorem State.getV_setDraws (s : State) (n : Nat) (k : RegIx) : (s.setDraws n).getV k = s.getV k := rfl
@[simp] theorem State.getV_setPending (s : State) (ops : List HostOp) (k : RegIx) : (s.setPending ops).getV k = s.getV k := rfl

/-! Memory read after an update of something else. -/

@[simp] theorem State.byteAt_setRegs (s : State) (v : Vector Byte 16) (b : Nat) : (s.setRegs v).byteAt b = s.byteAt b := rfl
@[simp] theorem State.byteAt_setI (s : State) (w : Word) (b : Nat) : (s.setI w).byteAt b = s.byteAt b := rfl
@[simp] theorem State.byteAt_setPc (s : State) (w : Word) (b : Nat) : (s.setPc w).byteAt b = s.byteAt b := rfl
@[simp] theorem State.byteAt_setSp (s : State) (n : Fin 17) (b : Nat) : (s.setSp n).byteAt b = s.byteAt b := rfl
@[simp] theorem State.byteAt_setStack (s : State) (st : Vector Word 16) (b : Nat) : (s.setStack st).byteAt b = s.byteAt b := rfl
@[simp] theorem State.byteAt_setRpl (s : State) (v : Vector Byte 16) (b : Nat) : (s.setRpl v).byteAt b = s.byteAt b := rfl
@[simp] theorem State.byteAt_setDelay (s : State) (c : Byte) (b : Nat) : (s.setDelay c).byteAt b = s.byteAt b := rfl
@[simp] theorem State.byteAt_setSound (s : State) (c : Byte) (b : Nat) : (s.setSound c).byteAt b = s.byteAt b := rfl
@[simp] theorem State.byteAt_setScreen (s : State) (scr : Screen) (b : Nat) : (s.setScreen scr).byteAt b = s.byteAt b := rfl
@[simp] theorem State.byteAt_setHires (s : State) (c : Bool) (b : Nat) : (s.setHires c).byteAt b = s.byteAt b := rfl
@[simp] theorem State.byteAt_setLatch (s : State) (c : Bool) (b : Nat) : (s.setLatch c).byteAt b = s.byteAt b := rfl
@[simp] theorem State.byteAt_setKeys (s : State) (ks : Vector Bool 16) (b : Nat) : (s.setKeys ks).byteAt b = s.byteAt b := rfl
@[simp] theorem State.byteAt_setProfile (s : State) (p : Profile) (b : Nat) : (s.setProfile p).byteAt b = s.byteAt b := rfl
@[simp] theorem State.byteAt_setAccs (s : State) (c t d : Rat) (b : Nat) : (s.setAccs c t d).byteAt b = s.byteAt b := rfl
@[simp] theorem State.byteAt_setFault (s : State) (f : Option FaultStatus) (b : Nat) : (s.setFault f).byteAt b = s.byteAt b := rfl
@[simp] theorem State.byteAt_setDraws (s : State) (n : Nat) (b : Nat) : (s.setDraws n).byteAt b = s.byteAt b := rfl
@[simp] theorem State.byteAt_setPending (s : State) (ops : List HostOp) (b : Nat) : (s.setPending ops).byteAt b = s.byteAt b := rfl
@[simp] theorem State.byteAt_setV (s : State) (x : RegIx) (c : Byte) (b : Nat) : (s.setV x c).byteAt b = s.byteAt b := rfl
@[simp] theorem State.byteAt_setRegsUpTo (s : State) (x : RegIx) (g : RegIx → Byte) (b : Nat) : (s.setRegsUpTo x g).byteAt b = s.byteAt b := rfl

/-! Registers read after a register write. -/

@[simp] theorem State.getV_setRegs (s : State) (v : Vector Byte 16) (k : RegIx) : (s.setRegs v).getV k = v[k.val] := rfl

@[simp] theorem State.getV_setV (s : State) (x k : RegIx) (b : Byte) :
    (s.setV x b).getV k = if k = x then b else s.getV k := by
  simp only [State.getV, State.setV, State.setRegs, Vector.getElem_set, Fin.ext_iff, eq_comm]

@[simp] theorem State.getV_setRegsUpTo (s : State) (x k : RegIx) (g : RegIx → Byte) :
    (s.setRegsUpTo x g).getV k = if k ≤ x then g k else s.getV k := by
  simp [State.getV, State.setRegsUpTo, State.setRegs]

/-! The composed updates in terms of the ones above. -/

@[simp] theorem State.setFlag_eq (s : State) (b : Byte) : s.setFlag b = s.setV flagReg b := rfl
@[simp] theorem State.advance_eq (s : State) : s.advance = s.setPc (s.pc + 2) := rfl
@[simp] theorem State.skip_eq (s : State) : s.skip = s.setPc (s.pc + 2) := rfl
@[simp] theorem State.rewind_eq (s : State) : s.rewind = s.setPc (s.pc - 2) := rfl
@[simp] theorem takeFault_eq (s : State) (f : FaultStatus) : takeFault f s = s.setFault (some f) := rfl
@[simp] theorem State.quirks_eq (s : State) : s.quirks = s.profile.quirks := rfl

end Sys2Proof.Machine
end

