-- ==== Sys2Proof/Laws/Screen.lean ====
section
/-! SUPPORT. What the screen operations do, cell by cell. -/

namespace Sys2Proof.Machine

theorem Screen.cell_outside (scr : Screen) (r c : Nat) (h : ¬(r < 64 ∧ c < 128)) : scr.cell r c = false := by
  simp [Screen.cell, h]

@[simp] theorem Screen.cell_ofCells (f : Nat → Nat → Bool) (r c : Nat) :
    (Screen.ofCells f).cell r c = if r < 64 ∧ c < 128 then f r c else false := by
  unfold Screen.cell Screen.ofCells
  split <;> simp

/-- The logical region lies in the buffer. -/
theorem inRegion_buffer (hires : Bool) (r c : Nat) (h : inRegion hires r c = true) : r < 64 ∧ c < 128 := by
  cases hires <;> simp [inRegion, screenHeight, screenWidth] at h <;> omega

@[simp] theorem Screen.cell_mapRegion (old : Screen) (hires : Bool) (f : Nat → Nat → Bool) (r c : Nat) :
    (old.mapRegion hires f).cell r c = if inRegion hires r c then f r c else old.cell r c := by
  unfold Screen.mapRegion
  rw [Screen.cell_ofCells]
  by_cases hb : r < 64 ∧ c < 128
  · rw [if_pos hb]
  · have hn : ¬inRegion hires r c = true := fun h => hb (inRegion_buffer hires r c h)
    rw [if_neg hb, if_neg hn, Screen.cell_outside old r c hb]

theorem Screen.cell_toggle (scr : Screen) (r c r' c' : Nat) :
    (scr.toggle r c).cell r' c' =
      if r' = r ∧ c' = c ∧ r < 64 ∧ c < 128 then !scr.cell r' c' else scr.cell r' c' := by
  unfold Screen.toggle Screen.cell
  by_cases h : r < 64 ∧ c < 128
  · by_cases h' : r' < 64 ∧ c' < 128
    · simp only [h, h', and_self, dif_pos, and_true, Vector.getElem_set]
      by_cases hr : r = r'
      · subst hr
        by_cases hc : c = c'
        · subst hc; simp
        · have : ¬c' = c := fun e => hc e.symm
          simp [hc, this]
      · have : ¬r' = r := fun e => hr e.symm
        simp [hr, this]
    · have : ¬(r' = r ∧ c' = c ∧ r < 64 ∧ c < 128) := by rintro ⟨rfl, rfl, hh⟩; exact h' hh
      rw [if_neg this]
      simp [h']
  · have : ¬(r' = r ∧ c' = c ∧ r < 64 ∧ c < 128) := fun hh => h hh.2.2
    rw [if_neg this]
    simp [h]

/-- Everything plotting does: each cell of a list without repeats, all in the buffer, is toggled once, and the
collision says whether one of them was lit (R154). -/
theorem plotCells_spec (cells : List (Nat × Nat)) (scr : Screen) (hit : Bool) (hd : cells.Nodup)
    (hb : ∀ p ∈ cells, p.1 < 64 ∧ p.2 < 128) :
    (∀ r c, (cells.foldl plotCell (scr, hit)).1.cell r c =
      if (r, c) ∈ cells then !scr.cell r c else scr.cell r c) ∧
    (cells.foldl plotCell (scr, hit)).2 = (hit || cells.any fun p => scr.cell p.1 p.2) := by
  induction cells generalizing scr hit with
  | nil => simp
  | cons p rest ih =>
    obtain ⟨hp, hd⟩ := List.nodup_cons.1 hd
    obtain ⟨h1, h2⟩ := ih (scr.toggle p.1 p.2) (hit || scr.cell p.1 p.2) hd fun q hq => hb q (by simp [hq])
    have hpb := hb p (by simp)
    have other : ∀ q ∈ rest, (scr.toggle p.1 p.2).cell q.1 q.2 = scr.cell q.1 q.2 := by
      intro q hq
      rw [Screen.cell_toggle, if_neg]
      rintro ⟨e1, e2, -⟩
      exact hp (by rwa [← Prod.ext e1 e2])
    rw [List.foldl_cons]
    refine ⟨fun r c => ?_, ?_⟩
    · show (rest.foldl plotCell (scr.toggle p.1 p.2, hit || scr.cell p.1 p.2)).1.cell r c = _
      rw [h1]
      by_cases hrc : (r, c) = p
      · subst hrc
        simp [hp, Screen.cell_toggle, hpb]
      · have hne : ¬(r = p.1 ∧ c = p.2 ∧ p.1 < 64 ∧ p.2 < 128) := by
          rintro ⟨e1, e2, -⟩; exact hrc (Prod.ext e1 e2)
        rw [Screen.cell_toggle, if_neg hne]
        simp [hrc]
    · show (rest.foldl plotCell (scr.toggle p.1 p.2, hit || scr.cell p.1 p.2)).2 = _
      rw [h2, List.any_cons, Bool.or_assoc]
      congr 2
      rw [Bool.eq_iff_iff, List.any_eq_true, List.any_eq_true]
      exact ⟨fun ⟨q, hq, h⟩ => ⟨q, hq, by rw [← other q hq]; exact h⟩,
        fun ⟨q, hq, h⟩ => ⟨q, hq, by rw [other q hq]; exact h⟩⟩

end Sys2Proof.Machine
end

