-- ==== Sys2Proof/Laws/Draw.lean ====
section
/-! SUPPORT. The cells a sprite hits: which they are, that they lie in the buffer and that none is hit twice
(R153, R154). -/

namespace Sys2Proof.Machine

theorem targetCell_eq_some (clip hires : Bool) (x0 y0 p q : Nat) (cell : Nat × Nat) :
    targetCell clip hires x0 y0 p q = some cell ↔
      if clip then x0 + q < screenWidth hires ∧ y0 + p < screenHeight hires ∧ cell = (y0 + p, x0 + q)
      else cell = ((y0 + p) % screenHeight hires, (x0 + q) % screenWidth hires) := by
  unfold targetCell
  cases clip
  · simp [eq_comm]
  · simp only [if_true]
    split
    · next h => simp; intro h1 h2; omega
    · next h =>
      simp only [Option.some.injEq, eq_comm]
      constructor
      · intro e; exact ⟨by omega, by omega, e⟩
      · exact fun e => e.2.2

theorem screenSize (hires : Bool) : screenWidth hires ≤ 128 ∧ screenHeight hires ≤ 64 ∧
    64 ≤ screenWidth hires ∧ 32 ≤ screenHeight hires := by cases hires <;> decide

theorem targetCell_buffer (clip hires : Bool) (x0 y0 p q : Nat) (cell : Nat × Nat)
    (h : targetCell clip hires x0 y0 p q = some cell) : cell.1 < screenHeight hires ∧ cell.2 < screenWidth hires := by
  rw [targetCell_eq_some] at h
  have hs := screenSize hires
  split at h
  · obtain ⟨h1, h2, rfl⟩ := h; exact ⟨h2, h1⟩
  · subst h; exact ⟨Nat.mod_lt _ (by omega), Nat.mod_lt _ (by omega)⟩

theorem add_mod_inj (a i j m : Nat) (hi : i < m) (hj : j < m) (h : (a + i) % m = (a + j) % m) : i = j := by
  have := Nat.ModEq.add_left_cancel' a (show a + i ≡ a + j [MOD m] from h)
  rw [Nat.ModEq, Nat.mod_eq_of_lt hi, Nat.mod_eq_of_lt hj] at this
  exact this

/-- Distinct sprite pixels land on distinct cells (R154): a sprite is no wider or taller than the region. -/
theorem targetCell_inj (clip hires : Bool) (x0 y0 p q p' q' : Nat) (cell : Nat × Nat) (hp : p < 16) (hq : q < 16)
    (hp' : p' < 16) (hq' : q' < 16) (h : targetCell clip hires x0 y0 p q = some cell)
    (h' : targetCell clip hires x0 y0 p' q' = some cell) : p = p' ∧ q = q' := by
  rw [targetCell_eq_some] at h h'
  have hs := screenSize hires
  split at h
  · rw [if_pos ‹_›] at h'
    obtain ⟨-, -, rfl⟩ := h
    have h2 := Prod.ext_iff.1 h'.2.2
    simp only at h2
    omega
  · rw [if_neg ‹_›] at h'
    subst h
    obtain ⟨h1, h2⟩ := Prod.ext_iff.1 h'
    exact ⟨add_mod_inj _ _ _ _ (by omega) (by omega) h1, add_mod_inj _ _ _ _ (by omega) (by omega) h2⟩

theorem spriteShape_le (hires : Bool) (n : Fin 16) : (spriteShape hires n).rows ≤ 16 ∧
    (spriteShape hires n).cols ≤ 16 := by
  unfold spriteShape; split <;> simp

theorem spriteHit_eq_some (s : State) (x y : RegIx) (n : Fin 16) (p q : Nat) (cell : Nat × Nat) :
    s.spriteHit x y n p q = some cell ↔
      s.spritePixel (spriteShape s.hires n).bytesPerRow p q = true ∧
      targetCell s.quirks.clip s.hires (s.getV x).toNat (s.getV y).toNat p q = some cell := by
  unfold State.spriteHit
  split <;> simp_all

theorem mem_spriteHits (s : State) (x y : RegIx) (n : Fin 16) (cell : Nat × Nat) :
    cell ∈ s.spriteHits x y n ↔ ∃ p q, p < (spriteShape s.hires n).rows ∧ q < (spriteShape s.hires n).cols ∧
      s.spriteHit x y n p q = some cell := by
  simp only [State.spriteHits, List.mem_flatMap, List.mem_filterMap, List.mem_range]
  constructor
  · rintro ⟨p, hp, q, hq, h⟩; exact ⟨p, q, hp, hq, h⟩
  · rintro ⟨p, q, hp, hq, h⟩; exact ⟨p, hp, q, hq, h⟩

theorem spriteHits_region (s : State) (x y : RegIx) (n : Fin 16) (cell : Nat × Nat)
    (h : cell ∈ s.spriteHits x y n) : cell.1 < screenHeight s.hires ∧ cell.2 < screenWidth s.hires := by
  obtain ⟨p, q, -, -, h⟩ := (mem_spriteHits s x y n cell).1 h
  exact targetCell_buffer _ _ _ _ _ _ _ ((spriteHit_eq_some s x y n p q cell).1 h).2

theorem spriteHits_nodup (s : State) (x y : RegIx) (n : Fin 16) : (s.spriteHits x y n).Nodup := by
  have hs := spriteShape_le s.hires n
  have inj : ∀ p q p' q' cell, p < (spriteShape s.hires n).rows → q < (spriteShape s.hires n).cols →
      p' < (spriteShape s.hires n).rows → q' < (spriteShape s.hires n).cols →
      s.spriteHit x y n p q = some cell → s.spriteHit x y n p' q' = some cell → p = p' ∧ q = q' := by
    intro p q p' q' cell hp hq hp' hq' h h'
    rw [spriteHit_eq_some] at h h'
    exact targetCell_inj _ _ _ _ _ _ _ _ cell (by omega) (by omega) (by omega) (by omega) h.2 h'.2
  refine List.nodup_flatMap.2 ⟨fun p hp => ?_, ?_⟩
  · rw [List.mem_range] at hp
    have : ((List.range (spriteShape s.hires n).cols).filterMap fun q => s.spriteHit x y n p q).Pairwise
        (fun a b => a ≠ b) := by
      rw [List.pairwise_filterMap]
      refine List.Pairwise.imp_of_mem ?_ List.nodup_range
      intro q q' hq hq' hne a ha b hb hab
      rw [List.mem_range] at hq hq'
      subst hab
      exact hne (inj p q p q' a hp hq hp hq' ha hb).2
    exact this
  · refine List.Pairwise.imp_of_mem ?_ List.nodup_range
    intro p p' hp hp' hne a ha ha'
    rw [List.mem_range] at hp hp'
    simp only [List.mem_filterMap, List.mem_range] at ha ha'
    obtain ⟨q, hq, ha⟩ := ha
    obtain ⟨q', hq', ha'⟩ := ha'
    exact hne (inj p q p' q' a hp hq hp' hq' ha ha').1

/-- What a `DRW` with its bytes in memory does to the screen and to the collision (R150, R154). -/
theorem plot_spriteHits (s : State) (x y : RegIx) (n : Fin 16) :
    (∀ r c, (plotCells s.screen (s.spriteHits x y n)).1.cell r c =
      if (r, c) ∈ s.spriteHits x y n then !s.screen.cell r c else s.screen.cell r c) ∧
    ((plotCells s.screen (s.spriteHits x y n)).2 = true ↔
      ∃ r c, (r, c) ∈ s.spriteHits x y n ∧ s.screen.cell r c = true) := by
  have hb : ∀ p ∈ s.spriteHits x y n, p.1 < 64 ∧ p.2 < 128 := by
    intro p hp
    have := spriteHits_region s x y n p hp
    have := screenSize s.hires
    omega
  obtain ⟨h1, h2⟩ := plotCells_spec (s.spriteHits x y n) s.screen false (spriteHits_nodup s x y n) hb
  refine ⟨h1, ?_⟩
  unfold plotCells
  rw [h2, Bool.false_or, List.any_eq_true]
  exact ⟨fun ⟨p, hp, h⟩ => ⟨p.1, p.2, hp, h⟩, fun ⟨r, c, hp, h⟩ => ⟨(r, c), hp, h⟩⟩

end Sys2Proof.Machine
end

