-- ==== Sys2Proof/Laws/Memory.lean ====
section
/-! SUPPORT. What the memory operations do, byte by byte, and that each keeps the canonical form. -/

namespace Sys2Proof.Machine

theorem Memory.read_forget (m : Memory) (ps : Params) (a b : Nat) :
    (m.forget a).read ps b = if b = a then resetByte ps b else m.read ps b := by
  unfold Memory.forget
  induction m with
  | nil => simp [Memory.read]
  | cons c rest ih =>
    by_cases hc : c.1 = a <;> by_cases hb : b = a <;> simp_all [Memory.read]
    intro h; exact absurd h.symm hb

theorem Memory.read_list (m : Memory) (ps : Params) (a : Nat) (v : Byte) (b : Nat) (h : ∀ c ∈ m, c.1 ≠ a) :
    (m.list a v).read ps b = if b = a then v else m.read ps b := by
  induction m with
  | nil => simp [Memory.list, Memory.read, eq_comm]
  | cons c rest ih =>
    have hc : c.1 ≠ a := h c (by simp)
    have hr := ih fun d hd => h d (by simp [hd])
    unfold Memory.list
    split
    · by_cases hb : b = a
      · simp [Memory.read, hb]
      · have hb' : ¬a = b := fun e => hb e.symm
        simp [Memory.read, hb, hb']
    · by_cases hb : b = a
      · subst hb; simp [Memory.read, hr, hc]
      · simp [Memory.read, hr, hb]

/-- "A write changes that byte and nothing else" (R45); a read gives the latest write (R50). -/
@[simp] theorem Memory.read_write (m : Memory) (ps : Params) (a b : Nat) (v : Byte) :
    (m.write ps a v).read ps b = if b = a then v else m.read ps b := by
  unfold Memory.write
  split
  · next h => rw [Memory.read_forget]; split <;> simp_all
  · rw [Memory.read_list _ _ _ _ _ (by simp [Memory.forget]), Memory.read_forget]
    split <;> simp_all

theorem Memory.read_writeBytes (m : Memory) (ps : Params) (a : Nat) (bs : List Byte) (b : Nat) :
    (m.writeBytes ps a bs).read ps b = if a ≤ b ∧ b < a + bs.length then bs.getD (b - a) 0 else m.read ps b := by
  induction bs generalizing m a with
  | nil => simp [Memory.writeBytes]
  | cons v rest ih =>
    rw [Memory.writeBytes, ih, Memory.read_write, List.length_cons]
    by_cases hab : b = a
    · subst hab; simp
    · by_cases hin : a + 1 ≤ b ∧ b < a + 1 + rest.length
      · have h1 : a ≤ b ∧ b < a + (rest.length + 1) := by omega
        have h2 : b - a = b - (a + 1) + 1 := by omega
        rw [if_pos hin, if_pos h1, h2, List.getD_cons_succ]
      · have h1 : ¬(a ≤ b ∧ b < a + (rest.length + 1)) := by omega
        rw [if_neg hin, if_neg h1, if_neg hab]

/-! The canonical form. -/

theorem Memory.wf_forget (m : Memory) (ps : Params) (a : Nat) (h : m.wf ps) : (m.forget a).wf ps :=
  ⟨h.1.filter _, fun c hc => h.2 c (List.mem_of_mem_filter hc)⟩

theorem Memory.mem_list (m : Memory) (a : Nat) (v : Byte) (c : Host.Cell) :
    c ∈ m.list a v ↔ c = (a, v) ∨ c ∈ m := by
  induction m with
  | nil => simp [Memory.list]
  | cons d rest ih =>
    unfold Memory.list
    split
    · simp
    · simp [ih]; tauto

theorem Memory.wf_list (m : Memory) (ps : Params) (a : Nat) (v : Byte) (h : m.wf ps) (hm : ∀ c ∈ m, c.1 ≠ a)
    (ha : a ≤ topAddress) (hv : v ≠ resetByte ps a) : (m.list a v).wf ps := by
  refine ⟨?_, fun c hc => ?_⟩
  · obtain ⟨hs, -⟩ := h
    induction m with
    | nil => simp [Memory.list]
    | cons d rest ih =>
      rw [List.pairwise_cons] at hs
      unfold Memory.list
      split
      · next hlt =>
        refine List.pairwise_cons.2 ⟨fun c hc => ?_, List.pairwise_cons.2 hs⟩
        rcases List.mem_cons.1 hc with rfl | hc
        · exact hlt
        · exact Nat.lt_trans hlt (hs.1 c hc)
      · next hge =>
        have hd := hm d (by simp)
        refine List.pairwise_cons.2 ⟨fun c hc => ?_, ih (fun c hc => hm c (by simp [hc])) hs.2⟩
        rcases (Memory.mem_list rest a v c).1 hc with rfl | hc
        · show d.1 < a; omega
        · exact hs.1 c hc
  · rcases (Memory.mem_list m a v c).1 hc with rfl | hc
    · exact ⟨ha, hv⟩
    · exact h.2 c hc

theorem Memory.wf_write (m : Memory) (ps : Params) (a : Nat) (v : Byte) (h : m.wf ps) (ha : a ≤ topAddress) :
    (m.write ps a v).wf ps := by
  unfold Memory.write
  split
  · exact Memory.wf_forget m ps a h
  · next hv => exact Memory.wf_list _ _ _ _ (Memory.wf_forget m ps a h) (by simp [Memory.forget]) ha hv

/-- Every write of the machine keeps the canonical form: its addresses are in memory. -/
theorem Memory.wf_writeBytes (m : Memory) (ps : Params) (a : Nat) (bs : List Byte) (h : m.wf ps)
    (ha : bs = [] ∨ a + bs.length - 1 ≤ topAddress) : (m.writeBytes ps a bs).wf ps := by
  induction bs generalizing m a with
  | nil => exact h
  | cons v rest ih =>
    simp only [reduceCtorEq, false_or, List.length_cons] at ha
    refine ih _ _ (Memory.wf_write m ps a v h (by omega)) ?_
    rcases rest with _ | ⟨w, ws⟩
    · exact .inl rfl
    · simp only [List.length_cons] at ha ⊢; omega

theorem Memory.wf_creation (ps : Params) : (State.creation ps).mem.wf ps := by simp [State.creation, Memory.wf]

/-- In canonical form, memories that read alike are equal data. -/
theorem Memory.wf_ext (m m' : Memory) (ps : Params) (h : m.wf ps) (h' : m'.wf ps)
    (hr : ∀ a, m.read ps a = m'.read ps a) : m = m' := by
  have out : ∀ (m : Memory) (a : Nat), (∀ c ∈ m, a < c.1) → m.read ps a = resetByte ps a := by
    intro m a hm
    induction m with
    | nil => rfl
    | cons c rest ih =>
      have := hm c (by simp)
      rw [Memory.read, if_neg (by omega), ih fun d hd => hm d (by simp [hd])]
  have head : ∀ (c : Host.Cell) (rest : Memory), Memory.wf (c :: rest) ps → Memory.wf rest ps ∧
      (∀ d ∈ rest, c.1 < d.1) ∧ Memory.read (c :: rest) ps c.1 = c.2 ∧ c.2 ≠ resetByte ps c.1 := by
    intro c rest hw
    obtain ⟨hs, hc⟩ := hw
    rw [List.pairwise_cons] at hs
    exact ⟨⟨hs.2, fun d hd => hc d (by simp [hd])⟩, hs.1, by simp [Memory.read], (hc c (by simp)).2⟩
  induction m generalizing m' with
  | nil =>
    cases m' with
    | nil => rfl
    | cons c rest =>
      obtain ⟨-, -, hread, hne⟩ := head c rest h'
      exact absurd (by rw [← hread, ← hr]; rfl) hne
  | cons c rest ih =>
    obtain ⟨hw, hlt, hread, hne⟩ := head c rest h
    cases m' with
    | nil => exact absurd (by rw [← hread, hr]; rfl) hne
    | cons d rest' =>
      obtain ⟨hw', hlt', hread', hne'⟩ := head d rest' h'
      have hcd : c.1 = d.1 := by
        rcases Nat.lt_trichotomy c.1 d.1 with hl | he | hg
        · refine absurd ?_ hne
          rw [← hread, hr]
          refine out _ _ fun e he => ?_
          rcases List.mem_cons.1 he with rfl | he
          · exact hl
          · exact Nat.lt_trans hl (hlt' e he)
        · exact he
        · refine absurd ?_ hne'
          rw [← hread', ← hr]
          refine out _ _ fun e he => ?_
          rcases List.mem_cons.1 he with rfl | he
          · exact hg
          · exact Nat.lt_trans hg (hlt e he)
      have hv : c.2 = d.2 := by rw [← hread, hr, hcd, hread']
      have hrest : rest = rest' := by
        refine ih rest' hw hw' fun a => ?_
        by_cases ha : a = c.1
        · subst ha
          rw [out rest _ hlt, out rest' _ (by rw [hcd]; exact hlt')]
        · have := hr a
          rw [Memory.read, Memory.read, if_neg (fun e => ha e.symm),
            if_neg (fun e => ha (by rw [hcd]; exact e.symm))] at this
          exact this
      rw [hrest, Prod.ext hcd hv]

/-! The machine's own memory. -/

/-- What a store does to every byte of the machine (R45, R49). -/
@[simp] theorem State.byteAt_store (s : State) (a : Nat) (bs : List Byte) (b : Nat) :
    (s.store a bs).byteAt b = if a ≤ b ∧ b < a + bs.length then bs.getD (b - a) 0 else s.byteAt b :=
  Memory.read_writeBytes s.mem s.params a bs b

/-- A store of bytes that are in memory keeps the canonical form. -/
theorem State.wf_store (s : State) (a : Nat) (bs : List Byte) (h : s.mem.wf s.params)
    (ha : bs = [] ∨ a + bs.length - 1 ≤ topAddress) : (s.store a bs).mem.wf (s.store a bs).params :=
  Memory.wf_writeBytes s.mem s.params a bs h ha

/-- Right after creation, and after `reset`, memory holds the two fonts and zeros (R12). -/
theorem State.byteAt_creation (ps : Params) (a : Nat) : (State.creation ps).byteAt a = resetByte ps a := rfl

end Sys2Proof.Machine
end

