-- ==== Sys2Proof/Laws/Ops.lean ====
section
/-! SUPPORT. For each shared operation of control, everything it can do. -/

namespace Sys2Proof.Machine

/-- The range check of R135 and R150: no bytes, or the last one is in memory. -/
theorem inMemory_iff (a n : Nat) : inMemory a n = true ↔ n = 0 ∨ a + n - 1 ≤ topAddress := by
  simp [inMemory]

/-- A fetch answers the two bytes at `pc`, or nothing when the second is past the top (R82). -/
theorem State.fetch_cases (s : State) :
    (s.pc.toNat + 1 > topAddress ∧ s.fetch = none) ∨
    (s.pc.toNat + 1 ≤ topAddress ∧
      s.fetch = some (wordOfBytes (s.byteAt s.pc.toNat) (s.byteAt (s.pc.toNat + 1)))) := by
  unfold State.fetch
  by_cases h : s.pc.toNat + 1 > topAddress
  · exact .inl ⟨h, by simp [h]⟩
  · exact .inr ⟨by omega, by simp [h]⟩

/-- The two bytes of a word, read back as a word (R46). -/
theorem wordOfBytes_bytes (w : Word) : wordOfBytes (highByte w) (lowByte w) = w := by
  apply BitVec.eq_of_toNat_eq
  simp only [wordOfBytes, highByte, lowByte, BitVec.toNat_ofNat]
  have := w.isLt
  omega

/-- Everything a `cpu_step` that answers a next state can have done, and what it reports: stalled, faulted in fetch,
faulted in decode, or run an instruction (R85, R175). -/
theorem cpuStep_cases (s t : State) (h : cpuStep s = .next t) :
    s.fault = none ∧
    ((s.stalled = true ∧ t = s ∧ cpuStepResult s = .stalled) ∨
      (s.stalled = false ∧ s.fetch = none ∧ t = s.setFault (some .outOfRange) ∧
        cpuStepResult s = .faulted .outOfRange) ∨
      (∃ w e, s.stalled = false ∧ s.fetch = some w ∧ decode w = .error e ∧
        t = s.setFault (some (.unknownOpcode w)) ∧ cpuStepResult s = .faulted (.unknownOpcode w)) ∨
      (∃ w i, s.stalled = false ∧ s.fetch = some w ∧ decode w = .ok i ∧ exec i s = .next t ∧
        cpuStepResult s = CpuResult.ofExec (.next t))) := by
  unfold cpuStep cpuStepWithResult at h
  unfold cpuStepResult cpuStepWithResult
  cases hf : s.fault with
  | some f => rw [hf] at h; cases h
  | none =>
    rw [hf] at h
    refine ⟨rfl, ?_⟩
    cases hs : s.stalled with
    | true => simp only [hs, if_true] at h ⊢; cases h; exact .inl ⟨trivial, rfl, trivial⟩
    | false =>
      simp only [hs, Bool.false_eq_true, if_false] at h ⊢
      cases hw : s.fetch with
      | none => rw [hw] at h; cases h; exact .inr (.inl ⟨trivial, rfl, rfl, rfl⟩)
      | some w =>
        simp only [hw] at h ⊢
        cases hd : decode w with
        | error e => rw [hd] at h; cases h; exact .inr (.inr (.inl ⟨w, e, trivial, rfl, hd, rfl, rfl⟩))
        | ok i =>
          rw [hd] at h
          have hx : exec i s = .next t := h
          exact .inr (.inr (.inr ⟨w, i, trivial, rfl, hd, hx, congrArg CpuResult.ofExec hx⟩))

/-- A step with no pending call is a `cpu_step`; otherwise it makes the oldest call. -/
theorem step_cases (s t : State) (h : step s = .next t) :
    (s.pending = [] ∧ cpuStep s = .next t) ∨
    (∃ op rest, s.pending = op :: rest ∧ hostCall op (s.setPending rest) = .next t) := by
  unfold step at h
  split at h
  · next hp => exact .inl ⟨hp, h⟩
  · next op rest hp => exact .inr ⟨op, rest, hp, h⟩

/-- The next call of a frame in progress (R193). -/
theorem hostFrameRest_cases (c n d : Nat) (s t : State) (h : hostFrameRest c n d s = .next t) :
    (s.fault ≠ none ∧ t = s) ∨
    (s.fault = none ∧
      ((∃ c', c = c' + 1 ∧ cpuStep (s.setPending (.frameRest c' n d :: s.pending)) = .next t) ∨
        (∃ n', c = 0 ∧ n = n' + 1 ∧ t = hostTimerTick (s.setPending (.frameRest 0 n' d :: s.pending))) ∨
        (∃ d', c = 0 ∧ n = 0 ∧ d = d' + 1 ∧ t = s.setPending (.frameRest 0 0 d' :: s.pending)) ∨
        (c = 0 ∧ n = 0 ∧ d = 0 ∧ t = s))) := by
  unfold hostFrameRest at h
  split at h
  · next hf => cases h; exact .inl ⟨hf, rfl⟩
  · next hf =>
    refine .inr ⟨not_not.1 hf, ?_⟩
    rcases c with _ | c
    · rcases n with _ | n
      · rcases d with _ | d
        · cases h; exact .inr (.inr (.inr ⟨rfl, rfl, rfl, rfl⟩))
        · cases h; exact .inr (.inr (.inl ⟨d, rfl, rfl, rfl, rfl⟩))
      · cases h; exact .inr (.inl ⟨n, rfl, rfl, rfl⟩)
    · exact .inl ⟨c, rfl, h⟩

/-- A stack that holds a call is popped, leaving its entries (R101). -/
theorem State.pop_eq (s : State) (h : 0 < s.sp.val) : s.pop h =
    (s.setPc (s.stack[s.sp.val - 1]'(by omega))).setSp ⟨s.sp.val - 1, by omega⟩ := rfl

/-- A stack with room is pushed: the entry at `sp`, then the count (R103). -/
theorem State.push_eq (s : State) (h : s.sp.val < 16) : s.push h =
    (s.setStack (s.stack.set s.sp.val s.pc)).setSp ⟨s.sp.val + 1, by omega⟩ := rfl

/-- A key number is listed exactly when its key is down (R164). -/
theorem State.mem_pressedKeys (s : State) (k : RegIx) : k ∈ s.pressedKeys ↔ s.keys[k.val] = true := by
  simp [State.pressedKeys]

/-- The decimal digits are three bytes. -/
@[simp] theorem decimalDigits_length (b : Byte) : (decimalDigits b).length = 3 := rfl

/-- The bytes of a bulk store are `x + 1` registers (R141). -/
@[simp] theorem State.regsUpTo_length (s : State) (x : RegIx) : (s.regsUpTo x).length = x.val + 1 := by
  simp [State.regsUpTo]

/-- Byte `k` of a bulk store is `V[k]` (R141). -/
theorem State.regsUpTo_getD (s : State) (x k : RegIx) (h : k ≤ x) : (s.regsUpTo x).getD k.val 0 = s.getV k := by
  have hk : k.val < x.val + 1 := by have := Fin.le_def.1 h; omega
  simp [State.regsUpTo, State.getV, List.getD_eq_getElem?_getD, hk]

end Sys2Proof.Machine
end

