-- ==== Sys2Proof/Laws/PerInstr.lean ====
section
/-! SUPPORT. Statements about every instruction as syntax, one lemma per constructor.
Family `RowFixedBits`: the word the encoder gives an instruction selects that instruction's row of the opcode table:
its fixed bits are the row's (R63, R66). -/

namespace Sys2Proof.Laws.RowFixedBits

/-- The encoding of the instruction has the fixed bits of its row. -/
def Statement (i : Instr) : Prop := i.row.selects (encode i) = true

/-- The top nibble of a word, by mask. -/
theorem and_F000 (w : Word) : w &&& 0xF000 = BitVec.ofNat 16 (w.toNat / 2 ^ 12 * 2 ^ 12) := by
  apply BitVec.eq_of_getLsbD_eq
  intro i hi
  rw [BitVec.getLsbD_and, BitVec.getLsbD_ofNat, Nat.testBit_mul_two_pow, Nat.testBit_div_two_pow]
  by_cases h : 12 ≤ i
  · have : (0xF000 : Word).getLsbD i = true := by
      have : i = 12 ∨ i = 13 ∨ i = 14 ∨ i = 15 := by omega
      rcases this with rfl | rfl | rfl | rfl <;> rfl
    rw [this, Nat.sub_add_cancel h, Bool.and_true]
    simp only [hi, h, decide_true, Bool.true_and, BitVec.getLsbD]
  · have : ∀ j : Fin 12, (0xF000 : Word).getLsbD j.val = false := by decide
    rw [this ⟨i, by omega⟩, Bool.and_false, decide_eq_false h, Bool.false_and, Bool.and_false]

theorem nnn_selects (a : Fin 16) (nnn : Imm12) :
    OpcodeRow.selects ⟨0xF000, BitVec.ofNat 16 (a.val * 4096)⟩ (packNnn a nnn) = true := by
  have := nnn.isLt
  have := a.isLt
  refine beq_iff_eq.2 ((and_F000 _).trans (congrArg (BitVec.ofNat 16) ?_))
  simp only [packNnn, BitVec.toNat_ofNat]
  omega

theorem xnn_selects (a x : Fin 16) (nn : Byte) :
    OpcodeRow.selects ⟨0xF000, BitVec.ofNat 16 (a.val * 4096)⟩ (packXnn a x nn) = true := by
  have := nn.isLt
  have := a.isLt
  have := x.isLt
  refine beq_iff_eq.2 ((and_F000 _).trans (congrArg (BitVec.ofNat 16) ?_))
  simp only [packXnn, BitVec.toNat_ofNat]
  omega

theorem xyn_selects (a x y n : Fin 16) :
    OpcodeRow.selects ⟨0xF000, BitVec.ofNat 16 (a.val * 4096)⟩ (packNibbles a x y n) = true := by
  have := a.isLt
  have := x.isLt
  have := y.isLt
  have := n.isLt
  refine beq_iff_eq.2 ((and_F000 _).trans (congrArg (BitVec.ofNat 16) ?_))
  simp only [packNibbles, BitVec.toNat_ofNat]
  omega

theorem cls : Statement (.cls) := rfl

theorem ret : Statement (.ret) := rfl

theorem scd (n : Fin 16) : Statement (.scd n) := by
  revert n; unfold Statement; decide

theorem scr : Statement (.scr) := rfl

theorem scl : Statement (.scl) := rfl

theorem low : Statement (.low) := rfl

theorem high : Statement (.high) := rfl

theorem sys (nnn : Imm12) : Statement (.sys nnn) := nnn_selects _ nnn

theorem jp (nnn : Imm12) : Statement (.jp nnn) := nnn_selects _ nnn

theorem call (nnn : Imm12) : Statement (.call nnn) := nnn_selects _ nnn

theorem seVxNn (x : RegIx) (nn : Byte) : Statement (.seVxNn x nn) := xnn_selects _ x nn

theorem sneVxNn (x : RegIx) (nn : Byte) : Statement (.sneVxNn x nn) := xnn_selects _ x nn

theorem seVxVy (x y : RegIx) : Statement (.seVxVy x y) := by
  revert x y; unfold Statement; decide

theorem ldVxNn (x : RegIx) (nn : Byte) : Statement (.ldVxNn x nn) := xnn_selects _ x nn

theorem addVxNn (x : RegIx) (nn : Byte) : Statement (.addVxNn x nn) := xnn_selects _ x nn

theorem ldVxVy (x y : RegIx) : Statement (.ldVxVy x y) := by
  revert x y; unfold Statement; decide

theorem orVxVy (x y : RegIx) : Statement (.orVxVy x y) := by
  revert x y; unfold Statement; decide

theorem andVxVy (x y : RegIx) : Statement (.andVxVy x y) := by
  revert x y; unfold Statement; decide

theorem xorVxVy (x y : RegIx) : Statement (.xorVxVy x y) := by
  revert x y; unfold Statement; decide

theorem addVxVy (x y : RegIx) : Statement (.addVxVy x y) := by
  revert x y; unfold Statement; decide

theorem subVxVy (x y : RegIx) : Statement (.subVxVy x y) := by
  revert x y; unfold Statement; decide

theorem shrVxVy (x y : RegIx) : Statement (.shrVxVy x y) := by
  revert x y; unfold Statement; decide

theorem subnVxVy (x y : RegIx) : Statement (.subnVxVy x y) := by
  revert x y; unfold Statement; decide

theorem shlVxVy (x y : RegIx) : Statement (.shlVxVy x y) := by
  revert x y; unfold Statement; decide

theorem sneVxVy (x y : RegIx) : Statement (.sneVxVy x y) := by
  revert x y; unfold Statement; decide

theorem ldINnn (nnn : Imm12) : Statement (.ldINnn nnn) := nnn_selects _ nnn

theorem jpV0 (nnn : Imm12) : Statement (.jpV0 nnn) := nnn_selects _ nnn

theorem rnd (x : RegIx) (nn : Byte) : Statement (.rnd x nn) := xnn_selects _ x nn

theorem drw (x y : RegIx) (n : Fin 16) : Statement (.drw x y n) := xyn_selects _ x y n

theorem skp (x : RegIx) : Statement (.skp x) := by
  revert x; unfold Statement; decide

theorem sknp (x : RegIx) : Statement (.sknp x) := by
  revert x; unfold Statement; decide

theorem ldVxDt (x : RegIx) : Statement (.ldVxDt x) := by
  revert x; unfold Statement; decide

theorem ldVxK (x : RegIx) : Statement (.ldVxK x) := by
  revert x; unfold Statement; decide

theorem ldDtVx (x : RegIx) : Statement (.ldDtVx x) := by
  revert x; unfold Statement; decide

theorem ldStVx (x : RegIx) : Statement (.ldStVx x) := by
  revert x; unfold Statement; decide

theorem addIVx (x : RegIx) : Statement (.addIVx x) := by
  revert x; unfold Statement; decide

theorem ldFVx (x : RegIx) : Statement (.ldFVx x) := by
  revert x; unfold Statement; decide

theorem ldHfVx (x : RegIx) : Statement (.ldHfVx x) := by
  revert x; unfold Statement; decide

theorem ldBVx (x : RegIx) : Statement (.ldBVx x) := by
  revert x; unfold Statement; decide

theorem ldMemVx (x : RegIx) : Statement (.ldMemVx x) := by
  revert x; unfold Statement; decide

theorem ldVxMem (x : RegIx) : Statement (.ldVxMem x) := by
  revert x; unfold Statement; decide

theorem ldRVx (x : RegIx) : Statement (.ldRVx x) := by
  revert x; unfold Statement; decide

theorem ldVxR (x : RegIx) : Statement (.ldVxR x) := by
  revert x; unfold Statement; decide

end Sys2Proof.Laws.RowFixedBits
end

