-- ==== Sys2Proof/Tests/Slice0.lean ====
section
/-! SUPPORT. Tests: the ill-formed terms, one word of every instruction written out from R66, single steps whose
expected values are those of spec/95_test_vectors.md (the vector is named before each test) or are computed by hand
from the rule cited, and for every obligation with hypotheses a state and operands that meet them. -/

namespace Sys2Proof.Tests

open Sys2Proof Sys2Proof.Machine

/-! ## Builders -/

/-- The next state of an outcome. -/
def nextOf (o : Host.Outcome State Fault Refusal) : Option State :=
  match o with
  | .next t => some t
  | _ => none

/-- What `f` reads in the state after instruction `i`. -/
def after {α : Type} (i : Instr) (s : State) (f : State → α) : Option α := (nextOf (exec i s)).map f

/-- What `f` reads in the state after one step. -/
def afterStep {α : Type} (s : State) (f : State → α) : Option α := (nextOf (step s)).map f

/-- The state at creation with some registers set. -/
def regs (l : List (RegIx × Byte)) : State := l.foldl (fun s p => s.setV p.1 p.2) State.reset

/-- A state under another profile. -/
def under (p : Profile) (s : State) : State := s.setProfile p

/-- A state with some cells lit. -/
def lit (cells : List (Nat × Nat)) (s : State) : State :=
  s.setScreen (cells.foldl (fun scr p => scr.toggle p.1 p.2) s.screen)

/-- A state with one host call pending. -/
def called (op : HostOp) (s : State) : State := s.setPending [op]

/-- The cells among `cells` that are lit. -/
def litAmong (cells : List (Nat × Nat)) (s : State) : List (Nat × Nat) :=
  cells.filter fun p => s.screen.cell p.1 p.2

/-- The glyph 0 of S10, drawn at the top left. -/
def glyphZeroCells : List (Nat × Nat) :=
  [(0, 0), (0, 1), (0, 2), (0, 3), (1, 0), (1, 3), (2, 0), (2, 3), (3, 0), (3, 3), (4, 0), (4, 1), (4, 2), (4, 3)]

/-- The state at creation with a byte pair stored at `a` and `pc` there. -/
def atWord (a : Nat) (hi lo : Byte) : State :=
  (State.reset.store a [hi, lo]).setPc (BitVec.ofNat 16 a)

/-- The state at creation with `n` calls held. -/
def calls (n : Fin 17) : State := State.reset.setSp n

/-! ## Ill-formed terms: each check of WellFormed refuses one -/

theorem test_illformed_cls : (Instr.sys 0x0E0).wellFormed = false := by decide
theorem test_illformed_ret : (Instr.sys 0x0EE).wellFormed = false := by decide
theorem test_illformed_scd : (Instr.sys 0x0C3).wellFormed = false := by decide
theorem test_illformed_scr : (Instr.sys 0x0FB).wellFormed = false := by decide
theorem test_illformed_scl : (Instr.sys 0x0FC).wellFormed = false := by decide
theorem test_illformed_low : (Instr.sys 0x0FE).wellFormed = false := by decide
theorem test_illformed_high : (Instr.sys 0x0FF).wellFormed = false := by decide
theorem test_wellformed_sys : (Instr.sys 0x0FD).wellFormed = true ∧ (Instr.sys 0x1E0).wellFormed = true := by decide

/-! ## Decoding: a word of every instruction, from the patterns of R66 -/

theorem test_decode_cls : decode 0b0000000011100000 = .ok .cls := by decide
theorem test_decode_ret : decode 0b0000000011101110 = .ok .ret := by decide
theorem test_decode_scd : decode 0b0000000011001001 = .ok (.scd 9) := by decide
theorem test_decode_scr : decode 0b0000000011111011 = .ok .scr := by decide
theorem test_decode_scl : decode 0b0000000011111100 = .ok .scl := by decide
theorem test_decode_low : decode 0b0000000011111110 = .ok .low := by decide
theorem test_decode_high : decode 0b0000000011111111 = .ok .high := by decide
theorem test_decode_sys : decode 0b0000100000000001 = .ok (.sys 0x801) := by decide
theorem test_decode_jp : decode 0b0001101000110101 = .ok (.jp 0xA35) := by decide
theorem test_decode_call : decode 0b0010000111001110 = .ok (.call 0x1CE) := by decide
theorem test_decode_seVxNn : decode 0b0011001110000001 = .ok (.seVxNn 3 0x81) := by decide
theorem test_decode_sneVxNn : decode 0b0100110000000111 = .ok (.sneVxNn 12 0x07) := by decide
theorem test_decode_seVxVy : decode 0b0101000110100000 = .ok (.seVxVy 1 10) := by decide
theorem test_decode_ldVxNn : decode 0b0110101001111111 = .ok (.ldVxNn 10 0x7F) := by decide
theorem test_decode_addVxNn : decode 0b0111010111111110 = .ok (.addVxNn 5 0xFE) := by decide
theorem test_decode_ldVxVy : decode 0b1000001001110000 = .ok (.ldVxVy 2 7) := by decide
theorem test_decode_orVxVy : decode 0b1000001001110001 = .ok (.orVxVy 2 7) := by decide
theorem test_decode_andVxVy : decode 0b1000001001110010 = .ok (.andVxVy 2 7) := by decide
theorem test_decode_xorVxVy : decode 0b1000001001110011 = .ok (.xorVxVy 2 7) := by decide
theorem test_decode_addVxVy : decode 0b1000001001110100 = .ok (.addVxVy 2 7) := by decide
theorem test_decode_subVxVy : decode 0b1000001001110101 = .ok (.subVxVy 2 7) := by decide
theorem test_decode_shrVxVy : decode 0b1000001001110110 = .ok (.shrVxVy 2 7) := by decide
theorem test_decode_subnVxVy : decode 0b1000001001110111 = .ok (.subnVxVy 2 7) := by decide
theorem test_decode_shlVxVy : decode 0b1000001001111110 = .ok (.shlVxVy 2 7) := by decide
theorem test_decode_sneVxVy : decode 0b1001111000010000 = .ok (.sneVxVy 14 1) := by decide
theorem test_decode_ldINnn : decode 0b1010001011110000 = .ok (.ldINnn 0x2F0) := by decide
theorem test_decode_jpV0 : decode 0b1011001011110000 = .ok (.jpV0 0x2F0) := by decide
theorem test_decode_rnd : decode 0b1100000100001111 = .ok (.rnd 1 0x0F) := by decide
theorem test_decode_drw : decode 0b1101000100100101 = .ok (.drw 1 2 5) := by decide
theorem test_decode_skp : decode 0b1110110110011110 = .ok (.skp 13) := by decide
theorem test_decode_sknp : decode 0b1110110110100001 = .ok (.sknp 13) := by decide
theorem test_decode_ldVxDt : decode 0b1111001100000111 = .ok (.ldVxDt 3) := by decide
theorem test_decode_ldVxK : decode 0b1111001100001010 = .ok (.ldVxK 3) := by decide
theorem test_decode_ldDtVx : decode 0b1111001100010101 = .ok (.ldDtVx 3) := by decide
theorem test_decode_ldStVx : decode 0b1111001100011000 = .ok (.ldStVx 3) := by decide
theorem test_decode_addIVx : decode 0b1111001100011110 = .ok (.addIVx 3) := by decide
theorem test_decode_ldFVx : decode 0b1111001100101001 = .ok (.ldFVx 3) := by decide
theorem test_decode_ldHfVx : decode 0b1111001100110000 = .ok (.ldHfVx 3) := by decide
theorem test_decode_ldBVx : decode 0b1111001100110011 = .ok (.ldBVx 3) := by decide
theorem test_decode_ldMemVx : decode 0b1111001101010101 = .ok (.ldMemVx 3) := by decide
theorem test_decode_ldVxMem : decode 0b1111001101100101 = .ok (.ldVxMem 3) := by decide
theorem test_decode_ldRVx : decode 0b1111001101110101 = .ok (.ldRVx 3) := by decide
theorem test_decode_ldVxR : decode 0b1111001110000101 = .ok (.ldVxR 3) := by decide

/-- T7: the words that match no row. -/
theorem test_decode_illegal :
    [0x8128, 0x812F, 0x5121, 0x5122, 0x9121, 0xE19F, 0xE000, 0xF100, 0xF101, 0xF002, 0xF000, 0xF066, 0xF13A].all
      (fun w => decide (decode w = .error (.unknownOpcode w))) = true := by decide

/-- T6: words of group 0 that no specific row takes are `SYS`. -/
theorem test_decode_group0 :
    [0x00FD, 0x00D3, 0x00FA, 0x0123, 0x00E1, 0x00EF, 0x00C0].map decode =
      [.ok (.sys 0x0FD), .ok (.sys 0x0D3), .ok (.sys 0x0FA), .ok (.sys 0x123), .ok (.sys 0x0E1), .ok (.sys 0x0EF),
        .ok (.scd 0)] := by decide

/-- T1: the first byte is the high byte. -/
theorem test_decode_bytes : decodeBytes [0x61, 0x2A, 0xFF] = .ok (.ldVxNn 1 0x2A, [0xFF]) ∧
    decodeBytes [0x61] = .error .truncated := by decide

/-! ## Steps -/

/-- T1, with the step around the instruction. -/
theorem test_step_ld :
    afterStep (State.reset.withFetchWord 16 0x612A) (fun t => (t.getV 1, t.pc)) = some (0x2A, 0x202) := by decide

/-- T2: an odd `pc` fetches the bytes at 0x203 and 0x204. -/
theorem test_step_odd_pc : afterStep (atWord 0x203 0x6A 0xBC) (fun t => (t.getV 10, t.pc)) = some (0xBC, 0x205) := by
  decide

/-- T3: the last word of memory runs, the next fetch faults with `pc` kept. -/
theorem test_step_top_word : afterStep (atWord 0xFFE 0x6A 0x11) (fun t => (t.getV 10, t.pc)) = some (0x11, 0x1000) ∧
    afterStep (State.reset.setPc 0x1000) (fun t => (t.fault, t.pc)) = some (some .outOfRange, 0x1000) := by decide

/-- T4: the word at 0xFFF cannot be fetched. -/
theorem test_step_past_top :
    afterStep (State.reset.setPc 0xFFF) (fun t => (t.fault, t.pc)) = some (some .outOfRange, 0xFFF) := by decide

/-- T7: an illegal word is recorded and `pc` kept. -/
theorem test_step_illegal : afterStep (State.reset.withFetchWord 16 0xF13A) (fun t => (t.fault, t.pc)) =
    some (some (.unknownOpcode 0xF13A), 0x200) := by decide

/-- T8: a dead machine has no CPU step, its timers still count. -/
theorem test_step_dead : nextOf (step (State.reset.setFault (some .outOfRange))) = none ∧
    afterStep (called .timerTick ((State.reset.setFault (some .outOfRange)).setDelay 5)) (fun t => (t.delay, t.fault))
      = some (4, some .outOfRange) := by decide

/-- T9, T10: the latch stalls under `chip8` before the fetch, and does not under `schip`. -/
theorem test_step_stalled :
    afterStep ((State.reset.withFetchWord 16 0x6A11).setLatch true) (fun t => (t.getV 10, t.pc)) = some (0, 0x200) ∧
    afterStep ((State.reset.setPc 0xFFF).setLatch true) (fun t => (t.fault, t.pc)) = some (none, 0xFFF) ∧
    afterStep (under .schip ((State.reset.withFetchWord 16 0x6A11).setLatch true)) (fun t => (t.getV 10, t.pc)) =
      some (0x11, 0x202) := by decide

/-- R85: the four results of a call. -/
theorem test_step_results : cpuStepResult (State.reset.withFetchWord 16 0x6A11) = .executed ∧
    cpuStepResult ((State.reset.withFetchWord 16 0x6A11).setLatch true) = .stalled ∧
    cpuStepResult (State.reset.withFetchWord 16 0x00EE) = .faulted .outOfRange ∧
    cpuStepResult (State.reset.setFault (some .outOfRange)) = .noTransition := by decide

/-- R86: a jump to itself ends a run well, a fault ends it badly, and a jump elsewhere does not end it. -/
theorem test_run_end : (State.reset.withFetchWord 16 0x1200).finished = true ∧
    (State.reset.withFetchWord 16 0x1202).ended = false ∧
    ((State.reset.setFault (some .outOfRange)).ended && !(State.reset.setFault (some .outOfRange)).finished) = true := by
  decide

/-- T5: `0000` only advances. -/
theorem test_step_sys : afterStep State.reset (fun t => (t.pc, t.fault, t.getV 0)) = some (0x202, none, 0) := by
  decide

/-! ## Screen control -/

/-- T28, S5. -/
theorem test_cls : after .cls (lit [(0, 0), (63, 127)] State.reset) (litAmong [(0, 0), (63, 127), (5, 5)]) = some [] := by
  decide +kernel

/-- T20. -/
theorem test_scd_low : after (.scd 3) (lit [(0, 5), (28, 5), (29, 5), (30, 5), (40, 5), (0, 100)] State.reset)
    (litAmong [(0, 5), (3, 5), (28, 5), (29, 5), (30, 5), (31, 5), (32, 5), (33, 5), (40, 5), (43, 5), (0, 100), (3, 100)])
      = some [(3, 5), (31, 5), (40, 5), (0, 100)] := by decide +kernel

/-- T21. -/
theorem test_scd_high : after (.scd 15) ((lit [(0, 0), (48, 127), (49, 0)] State.reset).setHires true)
    (litAmong [(0, 0), (15, 0), (48, 127), (49, 0), (63, 127), (63, 0)]) = some [(15, 0), (63, 127)] := by decide +kernel

/-- T22. -/
theorem test_scr_low : after .scr (lit [(2, 0), (2, 59), (2, 60), (2, 61), (2, 64), (40, 3)] State.reset)
    (litAmong [(2, 0), (2, 4), (2, 59), (2, 60), (2, 63), (2, 64), (2, 65), (2, 68), (40, 3), (40, 7)]) =
      some [(2, 4), (2, 63), (2, 64), (40, 3)] := by decide +kernel

/-- T23. -/
theorem test_scr_high : after .scr ((lit [(2, 0), (2, 123), (2, 124), (63, 60)] State.reset).setHires true)
    (litAmong [(2, 0), (2, 4), (2, 123), (2, 124), (2, 127), (3, 0), (63, 60), (63, 64)]) =
      some [(2, 4), (2, 127), (63, 64)] := by decide +kernel

/-- T24. -/
theorem test_scl_low : after .scl (lit [(10, 3), (10, 4), (10, 63), (10, 64), (10, 67), (33, 8)] State.reset)
    (litAmong [(10, 0), (10, 3), (10, 4), (10, 59), (10, 60), (10, 63), (10, 64), (10, 67), (33, 4), (33, 8)]) =
      some [(10, 0), (10, 59), (10, 64), (10, 67), (33, 8)] := by decide +kernel

/-- T25. -/
theorem test_scl_high : after .scl ((lit [(10, 3), (10, 4), (10, 64), (10, 127)] State.reset).setHires true)
    (litAmong [(10, 0), (10, 3), (10, 4), (10, 60), (10, 64), (10, 123), (10, 127)]) =
      some [(10, 0), (10, 60), (10, 123)] := by decide +kernel

/-- T26. -/
theorem test_high : after .high (lit [(40, 100)] State.reset) (fun t => (t.hires, t.screen.cell 40 100, t.pc)) =
    some (true, true, 0x202) := by decide +kernel

/-- T27. -/
theorem test_low : after .low ((lit [(40, 100)] State.reset).setHires true)
    (fun t => (t.hires, t.screen.cell 40 100, t.pc)) = some (false, true, 0x202) := by decide +kernel

/-- T6. -/
theorem test_sys : after (.sys 0x123) (regs [(15, 7)]) (fun t => (t.pc, t.getV 15, t.i)) = some (0x202, 7, 0) := by decide

/-! ## Control flow -/

/-- T4, first step. -/
theorem test_jp : after (.jp 0xFFF) State.reset (fun t => t.pc) = some 0xFFF := by decide

/-- T39: the return address of a call at 0xFFE is 0x1000. -/
theorem test_call : after (.call 0x300) (State.reset.setPc 0xFFE) (fun t => (t.stack[0], t.sp, t.pc)) =
    some (0x1000, 1, 0x300) := by decide

/-- T38: the sixteenth call is held, the seventeenth faults. -/
theorem test_call_limit : after (.call 0x200) (calls 15) (fun t => (t.stack[15], t.sp, t.pc, t.fault)) =
      some (0x202, 16, 0x200, none) ∧
    after (.call 0x200) (calls 16) (fun t => (t.sp, t.pc, t.fault)) = some (16, 0x200, some .outOfRange) := by decide

/-- S6, second step. -/
theorem test_ret : after .ret ((calls 1).setStack (State.reset.stack.set 0 0x202)) (fun t => (t.pc, t.sp, t.stack[0])) =
    some (0x202, 0, 0x202) := by decide

/-- T37. -/
theorem test_ret_empty : after .ret State.reset (fun t => (t.fault, t.sp, t.pc)) =
    some (some .outOfRange, 0, 0x200) := by decide

/-- T30. -/
theorem test_seVxNn : after (.seVxNn 3 0x2A) (regs [(3, 0x2A)]) (fun t => t.pc) = some 0x204 ∧
    after (.seVxNn 3 0x2A) (regs [(3, 0x2B)]) (fun t => t.pc) = some 0x202 := by decide

/-- T31. -/
theorem test_sneVxNn : after (.sneVxNn 3 0x2A) (regs [(3, 0x2A)]) (fun t => t.pc) = some 0x202 ∧
    after (.sneVxNn 3 0x2A) (regs [(3, 0)]) (fun t => t.pc) = some 0x204 := by decide

/-- T32. -/
theorem test_seVxVy : after (.seVxVy 1 2) (regs [(1, 7), (2, 7)]) (fun t => t.pc) = some 0x204 ∧
    after (.seVxVy 1 1) (regs [(1, 7)]) (fun t => t.pc) = some 0x204 := by decide

/-- T33. -/
theorem test_sneVxVy : after (.sneVxVy 1 2) (regs [(1, 7), (2, 8)]) (fun t => t.pc) = some 0x204 ∧
    after (.sneVxVy 1 2) (regs [(1, 7), (2, 7)]) (fun t => t.pc) = some 0x202 := by decide

/-- T35. -/
theorem test_jpV0 : [Profile.chip8, .schip, .xo].map
    (fun p => after (.jpV0 0x2F0) (under p (regs [(0, 4), (2, 0x10)])) (fun t => t.pc)) =
      [some 0x2F4, some 0x300, some 0x2F4] := by decide

/-- T36. -/
theorem test_jpV0_past_top : after (.jpV0 0xFFF) (regs [(0, 0xFF)]) (fun t => t.pc) = some 0x10FE := by decide

/-! ## Arithmetic and logic -/

/-- `V1` and `VF` after an instruction. -/
def v1f (i : Instr) (s : State) : Option (Byte × Byte) := after i s fun t => (t.getV 1, t.getV 15)

/-- S1. -/
theorem test_ldVxNn : after (.ldVxNn 15 0x01) State.reset (fun t => (t.getV 15, t.pc)) = some (1, 0x202) := by decide

/-- T52, second step. -/
theorem test_addVxNn : v1f (.addVxNn 1 0x02) (regs [(1, 0xFF)]) = some (0x01, 0) := by decide

/-- T40. -/
theorem test_ldVxVy : v1f (.ldVxVy 1 2) (regs [(1, 0x11), (2, 0x99), (15, 5)]) = some (0x99, 5) := by decide

/-- T41, T42. -/
theorem test_orVxVy : [Profile.chip8, .schip, .xo].map
    (fun p => v1f (.orVxVy 1 2) (under p (regs [(1, 0x0F), (2, 0xF0), (15, 1)]))) =
      [some (0xFF, 0), some (0xFF, 1), some (0xFF, 1)] := by decide

/-- T56, T57. -/
theorem test_orVxVy_flag : after (.orVxVy 15 1) (regs [(15, 0x0F), (1, 0xF0)]) (fun t => t.getV 15) = some 0 ∧
    v1f (.orVxVy 1 15) (regs [(1, 0xF0), (15, 0x0F)]) = some (0xFF, 0) := by decide

/-- T43. -/
theorem test_andVxVy : [Profile.chip8, .xo].map
    (fun p => v1f (.andVxVy 1 2) (under p (regs [(1, 0x3C), (2, 0x0F), (15, 1)]))) =
      [some (0x0C, 0), some (0x0C, 1)] := by decide

/-- T44. -/
theorem test_xorVxVy : [Profile.chip8, .schip].map
    (fun p => v1f (.xorVxVy 1 2) (under p (regs [(1, 0xFF), (2, 0x0F), (15, 1)]))) =
      [some (0xF0, 0), some (0xF0, 1)] := by decide

/-- S2. -/
theorem test_addVxVy : v1f (.addVxVy 1 2) (regs [(1, 0xC8), (2, 0x64)]) = some (0x2C, 1) ∧
    v1f (.addVxVy 1 2) (regs [(1, 0x80), (2, 0x7F)]) = some (0xFF, 0) := by decide

/-- T54, T55. -/
theorem test_addVxVy_flag : v1f (.addVxVy 1 15) (regs [(1, 0xFF), (15, 1)]) = some (0, 1) ∧
    after (.addVxVy 15 15) (regs [(15, 0x90)]) (fun t => t.getV 15) = some 1 := by decide

/-- S3. -/
theorem test_subVxVy : v1f (.subVxVy 1 2) (regs [(1, 5), (2, 10)]) = some (0xFB, 0) ∧
    v1f (.subVxVy 1 2) (regs [(1, 7), (2, 7)]) = some (0, 1) := by decide

/-- T61. -/
theorem test_subVxVy_flag : after (.subVxVy 15 0) (regs [(15, 5), (0, 5)]) (fun t => t.getV 15) = some 1 := by decide

/-- S4. -/
theorem test_shrVxVy : [Profile.chip8, .schip].map
    (fun p => v1f (.shrVxVy 1 2) (under p (regs [(1, 4), (2, 3)]))) = [some (1, 1), some (2, 0)] := by decide

/-- T58. -/
theorem test_shrVxVy_flag : [Profile.chip8, .schip].map
    (fun p => after (.shrVxVy 15 1) (under p (regs [(15, 3), (1, 4)])) (fun t => t.getV 15)) = [some 0, some 1] := by
  decide

/-- T46, T47. -/
theorem test_subnVxVy : v1f (.subnVxVy 1 2) (regs [(1, 5), (2, 10)]) = some (5, 1) ∧
    v1f (.subnVxVy 1 2) (regs [(1, 10), (2, 5)]) = some (0xFB, 0) := by decide

/-- T49. -/
theorem test_shlVxVy : [Profile.chip8, .schip].map
    (fun p => v1f (.shlVxVy 1 2) (under p (regs [(1, 0x81), (2, 0x40)]))) = [some (0x80, 0), some (2, 1)] := by decide

/-- T50, T51. -/
theorem test_shlVxVy_carry : v1f (.shlVxVy 1 2) (regs [(1, 0), (2, 0xFF)]) = some (0xFE, 1) ∧
    v1f (.shlVxVy 1 2) (under .schip (regs [(1, 0xFF), (2, 0)])) = some (0xFE, 1) := by decide

/-- T62: with mask 0 the result is 0 for every free byte. -/
theorem test_rnd : after (.rnd 1 0) (regs [(1, 5)]) (fun t => t.getV 1) = some 0 := by
  show some (Config.freeByte 0 &&& 0) = some 0
  simp

/-! ## Index register and memory -/

/-- T70. -/
theorem test_ldINnn : after (.ldINnn 0x2F0) State.reset (fun t => t.i) = some 0x02F0 := by decide

/-- T71, T72. -/
theorem test_addIVx : after (.addIVx 1) ((regs [(1, 1)]).setI 0xFFFF) (fun t => (t.i, t.getV 15)) = some (0, 0) ∧
    after (.addIVx 1) ((regs [(1, 1)]).setI 0x0FFF) (fun t => (t.i, t.getV 15)) = some (0x1000, 0) := by decide

/-- T73. -/
theorem test_ldFVx : after (.ldFVx 3) (regs [(3, 0x0A)]) (fun t => t.i) = some 0x0032 ∧
    after (.ldFVx 3) (regs [(3, 0xFF)]) (fun t => t.i) = some 0x04FB := by decide

/-- T74. -/
theorem test_ldHfVx : after (.ldHfVx 3) (regs [(3, 2)]) (fun t => t.i) = some 0x0064 ∧
    after (.ldHfVx 3) (regs [(3, 0xFF)]) (fun t => t.i) = some 0x0A46 := by decide

/-- T76. -/
theorem test_ldBVx : after (.ldBVx 0) ((regs [(0, 0xFF)]).setI 0xFFD)
    (fun t => (t.byteAt 0xFFC, t.byteAt 0xFFD, t.byteAt 0xFFE, t.byteAt 0xFFF, t.i)) =
      some (0, 2, 5, 5, 0xFFD) := by decide

/-- T77. -/
theorem test_ldBVx_fault : after (.ldBVx 0) ((regs [(0, 0xFF)]).setI 0xFFE)
    (fun t => (t.fault, t.byteAt 0xFFE, t.byteAt 0xFFF, t.pc)) = some (some .outOfRange, 0, 0, 0x200) := by decide

/-- T78. -/
theorem test_ldMemVx : [Profile.chip8, .schip].map (fun p => after (.ldMemVx 2)
    (under p ((regs [(0, 1), (1, 2), (2, 3), (3, 4)]).setI 0x400))
    (fun t => (t.byteAt 0x400, t.byteAt 0x401, t.byteAt 0x402, t.byteAt 0x403, t.i))) =
      [some (1, 2, 3, 0, 0x403), some (1, 2, 3, 0, 0x400)] := by decide

/-- T79, T80: the last byte of a full store at 0xFF0 is 0xFFF; at 0xFF1 it faults. -/
theorem test_ldMemVx_top : after (.ldMemVx 15) ((regs [(0, 1), (15, 16)]).setI 0xFF0)
      (fun t => (t.byteAt 0xFF0, t.byteAt 0xFFF, t.i, t.fault)) = some (1, 16, 0x1000, none) ∧
    after (.ldMemVx 15) ((regs [(0, 1), (15, 16)]).setI 0xFF1) (fun t => (t.byteAt 0xFF1, t.i, t.fault)) =
      some (0, 0xFF1, some .outOfRange) := by decide

/-- T81. -/
theorem test_ldVxMem : after (.ldVxMem 4) (regs [(5, 9)])
    (fun t => (t.getV 0, t.getV 1, t.getV 2, t.getV 3, t.getV 4, t.getV 5, t.i)) =
      some (0xF0, 0x90, 0x90, 0x90, 0xF0, 9, 5) := by decide

/-- T82. -/
theorem test_ldVxMem_fault : after (.ldVxMem 4) ((regs [(0, 7)]).setI 0xFFC) (fun t => (t.fault, t.getV 0, t.i)) =
    some (some .outOfRange, 7, 0xFFC) := by decide

/-- T83, first step. -/
theorem test_ldRVx : after (.ldRVx 1) (regs [(0, 7), (1, 8), (2, 9)]) (fun t => (t.rpl[0], t.rpl[1], t.rpl[2])) =
    some (7, 8, 0) := by decide

/-- T83, last step; T84. -/
theorem test_ldVxR : after (.ldVxR 1) ((regs [(0, 1), (2, 9)]).setRpl ((State.reset.rpl.set 0 7).set 2 5))
      (fun t => (t.getV 0, t.getV 1, t.getV 2)) = some (7, 0, 9) ∧
    after (.ldVxR 1) (regs [(0, 1), (1, 1)]) (fun t => (t.getV 0, t.getV 1)) = some (0, 0) := by decide

/-! ## Draw -/

/-- S10, S7: the glyph 0 at the top left, then drawn over itself. -/
theorem test_drw_glyph : after (.drw 0 0 5) State.reset
      (fun t => (litAmong (glyphZeroCells ++ [(0, 4), (1, 1), (5, 0)]) t, t.getV 15, t.vblankWait)) =
        some (glyphZeroCells, 0, true) ∧
    after (.drw 0 0 5) (lit glyphZeroCells State.reset) (fun t => (litAmong glyphZeroCells t, t.getV 15)) =
      some ([], 1) := by decide +kernel

/-- T90, T91: a sprite across the corner, clipped and wrapped. -/
theorem test_drw_corner : [Profile.chip8, .xo].map (fun p => after (.drw 0 1 5) (under p (regs [(0, 62), (1, 30)]))
      (fun t => (litAmong [(0, 1), (0, 62), (1, 1), (2, 0), (2, 63), (30, 0), (30, 62), (30, 63), (31, 62), (32, 62)] t,
        t.getV 15, t.vblankWait))) =
    [some ([(30, 62), (30, 63), (31, 62)], 0, true),
      some ([(0, 1), (0, 62), (1, 1), (2, 0), (2, 63), (30, 0), (30, 62), (30, 63), (31, 62)], 0, false)] := by
  decide +kernel

/-! ## Keypad and timers -/

/-- A state with some keys down. -/
def keysDown (l : List (Fin 16)) (s : State) : State := s.setKeys (l.foldl (fun v k => v.set k.val true) s.keys)

/-- T110, T112. -/
theorem test_skp : after (.skp 2) (keysDown [10] (regs [(2, 10)])) (fun t => t.pc) = some 0x204 ∧
    after (.skp 2) (keysDown [10] (regs [(2, 0x1A)])) (fun t => (t.fault, t.pc)) = some (some .outOfRange, 0x200) := by
  decide

/-- T111, T113. -/
theorem test_sknp : after (.sknp 2) (regs [(2, 15)]) (fun t => t.pc) = some 0x204 ∧
    after (.sknp 2) (regs [(2, 16)]) (fun t => t.fault) = some (some .outOfRange) := by decide

/-- T116. -/
theorem test_ldVxDt : after (.ldVxDt 3) (State.reset.setDelay 0x3C) (fun t => t.getV 3) = some 0x3C := by decide

/-- T114. -/
theorem test_ldVxK_wait : after (.ldVxK 5) (regs [(5, 9)]) (fun t => (t.pc, t.getV 5)) = some (0x200, 9) := by decide

/-- R164 with one key down: that key, whatever the free choice. -/
theorem test_ldVxK : after (.ldVxK 5) (keysDown [12] State.reset) (fun t => (t.pc, t.getV 5)) = some (0x202, 12) := by
  have h : (keysDown [12] State.reset).pressedKeys = [12] := by decide
  simp only [after, exec, execLdVxK, h, nextOf, List.length_nil, Nat.zero_add, Nat.mod_one]
  decide

/-- T117. -/
theorem test_ldDtVx : after (.ldDtVx 3) (regs [(3, 0x3C)]) (fun t => (t.delay, t.sound)) = some (0x3C, 0) := by decide

/-- T117. -/
theorem test_ldStVx : after (.ldStVx 3) (regs [(3, 0x3C)]) (fun t => (t.delay, t.sound)) = some (0, 0x3C) := by decide

/-! ## The host's operations -/

/-- T118: two of the three ticks. -/
theorem test_timerTick :
    afterStep (called .timerTick (((State.reset.setDelay 2).setSound 1).setLatch true))
      (fun t => (t.delay, t.sound, t.vblankWait)) = some (1, 0, false) ∧
    afterStep (called .timerTick (State.reset.setDelay 1)) (fun t => (t.delay, t.sound)) = some (0, 0) := by decide

/-- T119. -/
theorem test_setKey : afterStep (called (.setKey 16 true) State.reset) (fun t => t.keys) = some State.reset.keys ∧
    afterStep (called (.setKey 15 true) State.reset) (fun t => (t.keys[15], t.keys[0])) = some (true, false) := by decide

/-- T120. -/
theorem test_selectProfile : afterStep (called (.selectProfile "SCHIP") (under .schip State.reset)) (fun t => t.profile) =
      some .chip8 ∧
    afterStep (called (.selectProfile "xo") State.reset) (fun t => t.profile) = some .xo := by decide

/-- T133, T134: no cap on the counts; time that runs backward is refused. -/
theorem test_schedule : scheduleCounts 5 15 State.reset = some ⟨7000, 600, 600⟩ ∧
    scheduleCounts 2 1 State.reset = none := by decide +kernel

/-- T131: the accumulators after the first call, the counts of the second. -/
theorem test_schedule_fraction : (hostSchedule 0 (1 / 1000) State.reset).accCpu = 7 / 10 ∧
    scheduleCounts (1 / 1000) (2 / 1000) (hostSchedule 0 (1 / 1000) State.reset) = some ⟨1, 0, 0⟩ := by decide +kernel

/-- T135. -/
theorem test_scheduleInteger : scheduleInteger 1000000 0 10000 700 = (7, 0) ∧
    scheduleInteger 1000000 0 5000 700 = (3, 500000) ∧ scheduleInteger 1000000 600000 5000 60 = (0, 900000) := by decide

/-- T140. -/
theorem test_reset : afterStep (called .reset (under .schip ((((regs [(1, 5)]).setPc 0x300).setFault
      (some .outOfRange)).setAccs (1 / 2) 0 0))) (fun t => (t.pc, t.getV 1, t.fault, t.profile, t.accCpu)) =
    some (0x200, 0, none, .schip, 1 / 2) := by decide +kernel

/-- T142: a second image lies over the first. -/
theorem test_load : afterStep (called (.load [0x12, 0x00])
      (State.reset.store 0x200 [0xA0, 0x00, 0xD0, 0x05]))
      (fun t => (t.byteAt 0x200, t.byteAt 0x201, t.byteAt 0x202, t.byteAt 0x203, t.pc)) =
    some (0x12, 0x00, 0xD0, 0x05, 0x200) := by decide

/-- R12, R13: glyph 0 and the last byte of glyph F; above the font memory is zero. -/
theorem test_font : [0, 1, 4, 79, 80, 0xFFF].map State.reset.byteAt = [0xF0, 0x90, 0xF0, 0x80, 0, 0] := by decide

/-- Memory stays canonical: writing what an unlisted address reads as removes the cell. -/
theorem test_mem_canonical : ((State.reset.store 0x300 [7]).store 0x300 [0]).mem = [] ∧
    ((State.reset.store 0x300 [7]).store 0x200 [8]).mem = [(0x200, 8), (0x300, 7)] := by decide

/-! ## Witnesses: for every obligation with hypotheses, a state and operands that meet them, at a boundary value of
each clause. An obligation whose only hypotheses are the two sides of a case split has a witness for each side. -/

/-- A state that has `pc` at `a` and nothing else set. -/
def atPc (a : Nat) : State := State.reset.setPc (BitVec.ofNat 16 a)

/-- A state with the latch set. -/
def latched (p : Profile) : State := (under p State.reset).setLatch true

/-- A state with `I` at `a`. -/
def indexAt (a : Nat) : State := State.reset.setI (BitVec.ofNat 16 a)

/-- A dead machine. -/
def dead : State := State.reset.setFault (some .outOfRange)

theorem test_witness_decodeOfEncode : (Instr.sys 0x0FD).wellFormed = true ∧ (Instr.drw 15 15 15).wellFormed = true := by
  decide

theorem test_witness_encodeOfDecode : decode 0x00CF = .ok (.scd 15) ∧ decode 0xFF85 = .ok (.ldVxR 15) := by decide

theorem test_witness_illegalWordsExact : decode 0x5001 = .error (.unknownOpcode 0x5001) ∧
    decode 0x8FF8 = .error (.unknownOpcode 0x8FF8) ∧ decode 0x800F = .error (.unknownOpcode 0x800F) ∧
    decode 0x900F = .error (.unknownOpcode 0x900F) ∧ decode 0xE000 = .error (.unknownOpcode 0xE000) ∧
    decode 0xFFFF = .error (.unknownOpcode 0xFFFF) := by decide

/-- The three ways a `cpu_step` is called: by default, by name, and as a step of a frame. -/
theorem test_witness_callsCpuStep : State.reset.callsCpuStep State.reset ∧
    (State.reset.setPending [.cpuStep, .timerTick]).callsCpuStep (State.reset.setPending [.timerTick]) ∧
    (State.reset.setPending [.frameRest 1 2 3]).callsCpuStep (State.reset.setPending [.frameRest 0 2 3]) :=
  ⟨.inl ⟨rfl, rfl⟩, .inr (.inl ⟨[.timerTick], rfl, rfl⟩), .inr (.inr ⟨0, 2, 3, [], rfl, rfl⟩)⟩

theorem test_witness_stepRunsDecodedInstruction :
    let u := atWord 0xFFE 0x6A 0x11
    (called .cpuStep u).callsCpuStep u ∧ (called .cpuStep u).fault = none ∧
      ¬(u.vblankWait = true ∧ u.quirks.vblank = true) ∧ u.pc.toNat + 1 ≤ 0xFFF ∧
      decode (wordOfBytes (u.byteAt u.pc.toNat) (u.byteAt (u.pc.toNat + 1))) = .ok (.ldVxNn 10 0x11) ∧
      ∃ t, exec (.ldVxNn 10 0x11) u = .next t ∧ t.fault = none :=
  ⟨.inr (.inl ⟨[], rfl, rfl⟩), rfl, by decide, by decide, by decide, _, rfl, rfl⟩

/-- Stalled, latched without the quirk, and the idle loop. -/
theorem test_witness_stalledStep :
    ((latched .chip8).callsCpuStep (latched .chip8) ∧ (latched .chip8).fault = none ∧
      (latched .chip8).vblankWait = true ∧ (latched .chip8).quirks.vblank = true) ∧
    ((latched .schip).callsCpuStep (latched .schip) ∧ (latched .schip).fault = none ∧
      (latched .schip).vblankWait = true ∧ (latched .schip).quirks.vblank = false ∧
      (latched .schip).fetch.map decode = some (.ok (.sys 0))) ∧
    ((atWord 0x200 0x12 0x00).callsCpuStep (atWord 0x200 0x12 0x00) ∧ (atWord 0x200 0x12 0x00).fault = none ∧
      (atWord 0x200 0x12 0x00).finished = true ∧ (atWord 0x200 0x12 0x00).stalled = false) :=
  ⟨⟨.inl ⟨rfl, rfl⟩, rfl, rfl, rfl⟩, ⟨.inl ⟨rfl, rfl⟩, rfl, rfl, rfl, by decide⟩,
    .inl ⟨rfl, rfl⟩, rfl, by decide, rfl⟩

theorem test_witness_fetchAndDecodeFaults :
    ((atPc 0xFFF).callsCpuStep (atPc 0xFFF) ∧ (atPc 0xFFF).running ∧ (atPc 0xFFF).pc.toNat + 1 > 0xFFF) ∧
    ((atWord 0xFFE 0x80 0x08).callsCpuStep (atWord 0xFFE 0x80 0x08) ∧ (atWord 0xFFE 0x80 0x08).running ∧
      (atWord 0xFFE 0x80 0x08).pc.toNat + 1 ≤ 0xFFF ∧
      decode (atWord 0xFFE 0x80 0x08).wordAtPc = .error (.unknownOpcode 0x8008)) :=
  ⟨⟨.inl ⟨rfl, rfl⟩, ⟨rfl, rfl⟩, by decide⟩, .inl ⟨rfl, rfl⟩, ⟨rfl, rfl⟩, by decide, by decide⟩

theorem test_witness_deadUntilReset : dead.fault = some .outOfRange ∧ dead.pending = [] ∧
    (called .cpuStep dead).pending = [.cpuStep] ∧ (called .cpuStep dead).fault = some .outOfRange ∧
    (called .timerTick dead).pending = [.timerTick] ∧ HostOp.timerTick ≠ .cpuStep ∧ HostOp.timerTick ≠ .reset ∧
    (called .reset dead).pending = [.reset] := ⟨rfl, rfl, rfl, rfl, rfl, nofun, nofun, rfl⟩

theorem test_witness_faultingStep : (atPc 0xFFF).callsCpuStep (atPc 0xFFF) ∧ (atPc 0xFFF).fault = none ∧
    ∃ t, step (atPc 0xFFF) = .next t ∧ t.fault = some .outOfRange := ⟨.inl ⟨rfl, rfl⟩, rfl, _, rfl, rfl⟩

/-- `RET` at 0x200 with no call held, on the side of the instruction; 0xFFF on the side of the fetch. -/
theorem test_witness_outOfRangeExactly :
    ((atPc 0xFFF).callsCpuStep (atPc 0xFFF) ∧ (atPc 0xFFF).running ∧ (atPc 0xFFF).pc.toNat + 1 > 0xFFF) ∧
    ((atWord 0x200 0x00 0xEE).callsCpuStep (atWord 0x200 0x00 0xEE) ∧ (atWord 0x200 0x00 0xEE).running ∧
      (atWord 0x200 0x00 0xEE).pc.toNat + 1 ≤ 0xFFF ∧
      decode (atWord 0x200 0x00 0xEE).wordAtPc = .ok .ret ∧ Instr.ret.outOfRange (atWord 0x200 0x00 0xEE)) ∧
    ∃ t, step (atWord 0x200 0x00 0xEE) = .next t ∧ t.fault = some .outOfRange :=
  ⟨⟨.inl ⟨rfl, rfl⟩, ⟨rfl, rfl⟩, by decide⟩, ⟨.inl ⟨rfl, rfl⟩, ⟨rfl, rfl⟩, by decide, by decide, rfl⟩, _, rfl, rfl⟩

theorem test_witness_everyInstructionAnswersNext : State.reset.fault = none := rfl

/-- The last cell of the low-resolution region and the cells just outside it; in high resolution the whole buffer is
the region and the cells outside are outside the buffer. -/
theorem test_witness_scrolls :
    (31 < (if State.reset.hires then 64 else 32) ∧ 63 < (if State.reset.hires then 128 else 64)) ∧
    ¬(32 < (if State.reset.hires then 64 else 32) ∧ 0 < (if State.reset.hires then 128 else 64)) ∧
    ¬(0 < (if State.reset.hires then 64 else 32) ∧ 64 < (if State.reset.hires then 128 else 64)) ∧
    (63 < (if (State.reset.setHires true).hires then 64 else 32) ∧
      127 < (if (State.reset.setHires true).hires then 128 else 64)) := by decide

theorem test_witness_callPushes : (calls 0).sp.val < 16 ∧ (calls 15).sp.val < 16 ∧ (calls 16).sp.val = 16 := by decide

theorem test_witness_retPops : (calls 1).sp.val = (0 : Fin 16).val + 1 ∧ (calls 16).sp.val = (15 : Fin 16).val + 1 ∧
    (calls 0).sp.val = 0 := by decide

theorem test_witness_callThenRet : (calls 15).sp.val < 16 ∧ (0 : Fin 16).val ≠ (calls 15).sp.val := by decide

theorem test_witness_jpV0 : (0xFFF : Imm12).toNat / 256 = (15 : RegIx).val ∧
    (0x0FF : Imm12).toNat / 256 = (0 : RegIx).val := by decide

theorem test_witness_logic :
    Instr.orVxVy 15 15 = .orVxVy 15 15 ∧ (0 : Byte) = (State.reset.getV 15 ||| State.reset.getV 15) ∧
    State.reset.quirks.logic = true ∧ (under .xo State.reset).quirks.logic = false := by decide

/-- A sum of 255 and of 256, equal operands, and a borrow of 1. -/
theorem test_witness_addSub :
    (((regs [(1, 0xFF), (2, 0)]).getV 1).toNat = 255 ∧ ((regs [(1, 0xFF), (2, 0)]).getV 2).toNat = 0) ∧
    (((regs [(1, 0xFF), (2, 1)]).getV 1).toNat = 255 ∧ ((regs [(1, 0xFF), (2, 1)]).getV 2).toNat = 1) ∧
    (((regs [(1, 7), (2, 7)]).getV 1).toNat = 7 ∧ ((regs [(1, 7), (2, 7)]).getV 2).toNat = 7) ∧
    (((regs [(2, 1)]).getV 1).toNat = 0 ∧ ((regs [(2, 1)]).getV 2).toNat = 1) := by decide

theorem test_witness_shift :
    (let s := regs [(1, 0x81), (2, 0x40)]; (if s.quirks.shift then s.getV 1 else s.getV 2).toNat = 0x40) ∧
    (let s := under .schip (regs [(1, 0x81), (2, 0x40)]);
      (if s.quirks.shift then s.getV 1 else s.getV 2).toNat = 0x81) := by decide

theorem test_witness_rnd : (0 : Byte) = 0 := rfl

theorem test_witness_bcd : (indexAt 0xFFD).i.toNat + 2 ≤ 0xFFF ∧ (indexAt 0xFFE).i.toNat + 2 > 0xFFF := by decide

/-- Also the witness of the bulk load and of the store followed by a load. -/
theorem test_witness_bulk : (indexAt 0xFF0).i.toNat + (15 : RegIx).val ≤ 0xFFF ∧
    (indexAt 0xFFF).i.toNat + (0 : RegIx).val ≤ 0xFFF ∧ (indexAt 0xFF1).i.toNat + (15 : RegIx).val > 0xFFF ∧
    (indexAt 0x1000).i.toNat + (0 : RegIx).val > 0xFFF := by decide

theorem test_witness_storedCodeRuns :
    let s := (regs [(14, 0x6A), (15, 0x11)]).setI 0xFF0
    (14 : RegIx).val + 1 < 16 ∧ (14 : RegIx).val + 1 ≤ (15 : RegIx).val ∧ s.running ∧
      s.i.toNat + (15 : RegIx).val ≤ 0xFFF ∧ decode (wordOfBytes (s.getV 14) (s.getV 15)) = .ok (.ldVxNn 10 0x11) ∧
      ∃ t, exec (.ldMemVx 15) s = .next t ∧ ({ t with pc := 0xFFE } : State).callsCpuStep { t with pc := 0xFFE } :=
  ⟨by decide, by decide, ⟨rfl, rfl⟩, by decide, by decide, _, rfl, .inl ⟨rfl, rfl⟩⟩

/-- The bounds of a 3-row, of a row-less and of a 16 by 16 sprite. -/
theorem test_witness_drwCompletes :
    ¬(Instr.drw 0 1 3).outOfRange (indexAt 0xFFD) ∧ (Instr.drw 0 1 3).outOfRange (indexAt 0xFFE) ∧
    (¬(Instr.drw 0 1 0).outOfRange (indexAt 0xFFFF) ∧ (indexAt 0xFFFF).hires = false) ∧
    ¬(Instr.drw 0 1 0).outOfRange ((indexAt 0xFE0).setHires true) ∧
    (Instr.drw 0 1 0).outOfRange ((indexAt 0xFE1).setHires true) := by
  simp only [Instr.outOfRange]
  decide

/-- The top left pixel of glyph 0 lands at (0, 0); no pixel lands in column 8. -/
theorem test_witness_drwToggles : ¬(Instr.drw 0 1 5).outOfRange State.reset ∧
    (∃ t, exec (.drw 0 1 5) State.reset = .next t) ∧ (∃ p q, State.reset.spriteLands 0 1 5 p q 0 0) ∧
    ¬∃ p q, State.reset.spriteLands 0 1 5 p q 0 8 := by
  refine ⟨by simp only [Instr.outOfRange]; decide, ⟨_, rfl⟩, ⟨0, 0, ?_⟩, ?_⟩
  · simp only [State.spriteLands]; decide
  · rintro ⟨p, q, h1, -, h3⟩
    rw [if_neg (by decide)] at h1
    rw [if_pos (by decide)] at h3
    obtain ⟨-, -, -, h⟩ := h3
    have hv : (State.reset.getV 0).toNat = 0 := by decide
    omega

theorem test_witness_drwTwice : (0 : RegIx) ≠ 15 ∧ (14 : RegIx) ≠ 15 ∧ ¬(Instr.drw 0 14 5).outOfRange State.reset := by
  simp only [Instr.outOfRange]
  decide

/-- The latch set by a draw; and its three ways down. -/
theorem test_witness_latch :
    (State.reset.pending = [] ∧ State.reset.fault = none ∧ State.reset.quirks.vblank = true ∧
      ∃ t, exec (.drw 0 0 5) State.reset = .next t ∧ t.fault = none) ∧
    (∃ t, step (called .timerTick (latched .chip8)) = .next t ∧ (called .timerTick (latched .chip8)).vblankWait = true ∧
      t.vblankWait = false) ∧
    (∃ t, step (called .reset (latched .chip8)) = .next t ∧ (called .reset (latched .chip8)).vblankWait = true ∧
      t.vblankWait = false) ∧
    (∃ t, step (called (.frameRest 0 1 0) (latched .chip8)) = .next t ∧
      (called (.frameRest 0 1 0) (latched .chip8)).vblankWait = true ∧ t.vblankWait = false) := by
  refine ⟨⟨rfl, rfl, rfl, _, rfl, rfl⟩, ⟨_, rfl, rfl, rfl⟩, ⟨_, rfl, rfl, rfl⟩, ⟨_, rfl, rfl, rfl⟩⟩

theorem test_witness_lowResolution : State.reset.hires = false ∧ Instr.scr ≠ .cls ∧
    (∃ t, exec .scr State.reset = .next t) ∧ ¬(32 < 32 ∧ 0 < 64) ∧ ¬(0 < 32 ∧ 64 < 64) :=
  ⟨rfl, nofun, ⟨_, rfl⟩, by decide, by decide⟩

theorem test_witness_keySkips : ((regs [(2, 15)]).getV 2).toNat = (15 : Fin 16).val ∧
    ((regs [(2, 16)]).getV 2).toNat > 15 := by decide

theorem test_witness_keyWait : (∃ k : Fin 16, (keysDown [15] State.reset).keys[k.val] = true) ∧
    ∀ k : Fin 16, State.reset.keys[k.val] = false := by decide

theorem test_witness_timerTick : (called .timerTick dead).pending = [.timerTick] := rfl

theorem test_witness_setKey : (called (.setKey 15 true) State.reset).pending = [.setKey 15 true] ∧
    (called (.setKey 16 true) State.reset).pending = [.setKey 16 true] ∧
    (called .displayTick State.reset).pending = [.displayTick] := ⟨rfl, rfl, rfl⟩

theorem test_witness_selectProfile : (called (.selectProfile "schip") State.reset).pending = [.selectProfile "schip"] ∧
    (called (.selectProfile "") State.reset).pending = [.selectProfile ""] := ⟨rfl, rfl⟩

/-- The ends of the ranges of R41: the last byte of `FONT`, the first and last of `BIGFONT`, the first past it. -/
theorem test_witness_reset : (79 : Fin 80).val = 79 ∧ (0x050 ≤ 0x050 ∧ 0x050 < 0x0F0) ∧
    (0x050 ≤ 0x0EF ∧ 0x0EF < 0x0F0) ∧ 0x0F0 ≤ 0x0F0 ∧ (called .reset dead).pending = [.reset] := by
  refine ⟨rfl, by decide, by decide, by decide, rfl⟩

theorem test_witness_load :
    ((called (.load (List.replicate 3584 1)) State.reset).pending = [.load (List.replicate 3584 1)] ∧
      (List.replicate 3584 (1 : Byte)).length ≤ 3584) ∧
    ((called (.load (List.replicate 3585 1)) State.reset).pending = [.load (List.replicate 3585 1)] ∧
      3584 < (List.replicate 3585 (1 : Byte)).length) := by
  exact ⟨⟨rfl, List.length_replicate.le⟩, rfl, List.length_replicate.ge⟩

theorem test_witness_params : defaultParams.wf := ⟨by decide, by norm_num [defaultParams], by norm_num [defaultParams],
  by norm_num [defaultParams]⟩

/-- A full `BIGFONT` of 160 bytes is a value of the parameters and ends at 0x0EF; one of 161 bytes is none, and memory
from 0x0F0 is zero all the same (R41). -/
theorem test_bigfont_range :
    let full (n : Nat) : Params := { defaultParams with bigFont := List.replicate n 0xFF }
    (full 160).wf ∧ ¬(full 161).wf ∧ (State.creation (full 160)).byteAt 0x0EF = 0xFF ∧
      (State.creation (full 160)).byteAt 0x0F0 = 0 ∧ (State.creation (full 161)).byteAt 0x0F0 = 0 := by
  refine ⟨⟨?_, test_witness_params.2⟩, fun h => absurd h.1 ?_, by decide, by decide, by decide⟩ <;>
  · rw [List.length_replicate]
    decide

/-- The parameters take other values: a machine with a high-resolution font and a faster CPU. -/
theorem test_witness_creation : ∃ (p : Params) (s : State), p.wf ∧ s = State.creation p ∧ p ≠ defaultParams ∧
    s.byteAt 0x050 = 0x3C ∧ s.byteAt 0x04F = 0x80 := by
  refine ⟨{ defaultParams with bigFont := [0x3C], freqCpu := 1000 }, _, ⟨by decide, ?_, ?_, ?_⟩, rfl, ?_, by decide,
    by decide⟩
  · norm_num
  · norm_num [defaultParams]
  · norm_num [defaultParams]
  · intro h
    exact absurd (congrArg Params.bigFont h) (by decide)

theorem test_witness_schedule :
    (called (.schedule 5 5) State.reset).pending = [.schedule 5 5] ∧ (5 : Rat) ≤ 5 ∧
    (called (.schedule 2 1) State.reset).pending = [.schedule 2 1] ∧ (1 : Rat) < 2 ∧ State.reset.params.wf ∧
    fraction State.reset.accCpu ∧ fraction State.reset.accTimers ∧ fraction State.reset.accDisplay := by
  refine ⟨rfl, le_refl _, rfl, by norm_num, test_witness_params, ?_, ?_, ?_⟩ <;> exact ⟨le_refl _, zero_lt_one⟩

theorem test_witness_scheduleLosesNoTicks : (0 : Rat) ≤ 1 / 3 ∧ ∀ e ∈ [(0 : Rat), 1 / 100], 0 ≤ e := by
  refine ⟨by norm_num, fun e he => ?_⟩
  simp only [List.mem_cons, List.not_mem_nil, or_false] at he
  rcases he with rfl | rfl <;> norm_num

theorem test_witness_integerScheduler : 0 < 1 ∧ 0 < 1 ∧ 0 < 1000000 ∧ 999999 < 1000000 := by decide

theorem test_witness_frame :
    ((0 : Rat) ≤ 0 ∧ (called (.frame 0 0) State.reset).pending = [.frame 0 0]) ∧
    ((1 : Rat) < 2 ∧ (called (.frame 2 1) State.reset).pending = [.frame 2 1]) ∧
    ((called (.frameRest 1 0 0) dead).pending = [.frameRest 1 0 0] ∧ dead.fault ≠ none) ∧
    ((called (.frameRest 1 0 0) State.reset).pending = [.frameRest 1 0 0] ∧ State.reset.fault = none ∧ 0 < 1) ∧
    (called (.frameRest 0 1 0) State.reset).pending = [.frameRest 0 1 0] ∧
    (called (.frameRest 0 0 1) State.reset).pending = [.frameRest 0 0 1] ∧
    (called (.frameRest 0 0 0) State.reset).pending = [.frameRest 0 0 0] :=
  ⟨⟨le_refl _, rfl⟩, ⟨by norm_num, rfl⟩, ⟨rfl, nofun⟩, ⟨rfl, rfl, by decide⟩, rfl, rfl, rfl⟩

theorem test_witness_stepKeepsInvariant : State.reset.Inv ∧ ∃ t, step State.reset = .next t := by
  refine ⟨⟨by simp [State.reset, State.creation, Memory.wf], test_witness_params, by decide, by decide, ?_, ?_, ?_⟩, _,
    rfl⟩ <;>
    exact ⟨le_refl _, zero_lt_one⟩

theorem test_witness_accessTable : (∃ t, exec .ret (calls 1) = .next t) ∧ ¬Instr.ret.outOfRange (calls 1) := by
  refine ⟨⟨_, rfl⟩, ?_⟩
  simp only [Instr.outOfRange]
  decide

theorem test_witness_cpuStepKeepsHostState : State.reset.callsCpuStep State.reset ∧ State.reset.fault = none ∧
    ∃ t, step State.reset = .next t := ⟨.inl ⟨rfl, rfl⟩, rfl, _, rfl⟩

theorem test_witness_soundIsNeverRead : ∃ t, exec (.ldStVx 3) State.reset = .next t := ⟨_, rfl⟩

theorem test_witness_vfWritten :
    ∃ t, exec (.ldVxNn 15 1) State.reset = .next t ∧ t.getV 15 ≠ State.reset.getV 15 := ⟨_, rfl, by decide⟩

end Sys2Proof.Tests
end

section
/-! SUPPORT. How the frames `Unchanged` and `Straight` compose, and the frames of the advance and of a screen update. -/

namespace Sys2Proof.Machine

/-- A piece kept by two updates in a row is kept by both together. -/
theorem Part.same_trans {p : Part} {s t u : State} (hst : p.same s t) (htu : p.same t u) : p.same s u := by
  cases p with
  | stack | accs => simp_all [Part.same]
  | mem | regs => exact fun k => (htu k).trans (hst k)
  | screen => exact fun r c => (htu r c).trans (hst r c)
  | _ => exact Eq.trans htu hst

theorem Unchanged.trans {parts : List Part} {s t u : State} (hst : Unchanged parts s t) (htu : Unchanged parts t u) :
    Unchanged parts s u :=
  fun p hp => Part.same_trans (hst p hp) (htu p hp)

/-- An update after a straight-line state that keeps `pc` and the pieces outside `parts` leaves it straight-line. -/
theorem Straight.trans_unchanged {parts : List Part} {s t u : State} (hst : Straight parts s t) (hpc : u.pc = t.pc)
    (htu : Unchanged parts t u) : Straight parts s u :=
  ⟨hpc.trans hst.1, hst.2.trans htu⟩

theorem State.unchanged_setPc (parts : List Part) (s : State) (w : Word) : Unchanged parts s (s.setPc w) := by
  intro p _
  cases p <;> simp [Part.same]

theorem State.straight_advance (parts : List Part) (s : State) : Straight parts s s.advance :=
  ⟨rfl, s.unchanged_setPc parts (s.pc + 2)⟩

theorem State.unchanged_setScreen (s : State) (scr : Screen) : Unchanged [.screen] s (s.setScreen scr) := by
  intro p hp
  cases p with
  | screen => exact absurd (List.mem_singleton_self Part.screen) hp
  | _ => simp [Part.same]

/-- The frame shared by the instructions that only replace the screen (R90). -/
theorem State.straight_advance_setScreen (s : State) (scr : Screen) : Straight [.screen] s (s.advance.setScreen scr) :=
  (s.straight_advance [.screen]).trans_unchanged rfl (s.advance.unchanged_setScreen scr)

end Sys2Proof.Machine
end

section
/-! PROOF. The screen-control family: `CLS` (R91) and `SYS` (R97). -/

namespace Sys2Proof.Machine

theorem exec_cls (s : State) :
    exec .cls s = .next (s.advance.setScreen (Screen.ofCells fun _ _ => false)) := rfl

theorem exec_sys (nnn : Imm12) (s : State) : exec (.sys nnn) s = .next s.advance := rfl

/-- Settles O13: the new screen is built cell by cell from `false`, and replacing the screen after the advance is all
`CLS` does. -/
theorem clsClearsWholeBuffer : Obligations.ClsClearsWholeBuffer := by
  intro s
  refine ⟨_, exec_cls s, fun r c => ?_, s.straight_advance_setScreen _⟩
  rw [State.setScreen_screen, Screen.cell_ofCells, ite_self]

/-- Settles O17: the state after `SYS nnn` is the advanced one, for every `nnn`. -/
theorem sysOnlyAdvances : Obligations.SysOnlyAdvances :=
  fun nnn s => ⟨s.advance, exec_sys nnn s, s.straight_advance []⟩

end Sys2Proof.Machine
end

section
/-! PROOF. The control-transfer family: `JP` (R102) and the four compare-and-skips (R104 to R107). -/

namespace Sys2Proof.Machine

theorem zext16_toNat (nnn : Imm12) : (zext16 nnn).toNat = nnn.toNat :=
  BitVec.toNat_setWidth_of_le (by decide)

/-- What a skip does: past this instruction, and past the next one too when the condition `b` holds (R8, R100). -/
theorem State.advance_skipIf (s : State) (b : Bool) :
    s.advance.skipIf b = s.setPc (if b then s.pc + 4 else s.pc + 2) := by
  cases b with
  | false => rfl
  | true =>
    have hpc : s.pc + 2 + 2 = s.pc + 4 := BitVec.add_assoc s.pc 2 2
    exact congrArg s.setPc hpc

/-- The `pc` and the frame of every conditional skip, with the tested Boolean read as the proposition it decides. -/
theorem State.advance_skipIf_spec (s : State) {b : Bool} {P : Prop} [Decidable P] (hb : b = true ↔ P) :
    (s.advance.skipIf b).pc = (if P then s.pc + 4 else s.pc + 2) ∧ Unchanged [] s (s.advance.skipIf b) := by
  rw [s.advance_skipIf b]
  exact ⟨if_congr hb rfl rfl, s.unchanged_setPc [] _⟩

theorem exec_jp (nnn : Imm12) (s : State) : exec (.jp nnn) s = .next (s.setPc (zext16 nnn)) := rfl

theorem exec_seVxNn (x : RegIx) (nn : Byte) (s : State) :
    exec (.seVxNn x nn) s = .next (s.advance.skipIf (s.getV x == nn)) := rfl

theorem exec_sneVxNn (x : RegIx) (nn : Byte) (s : State) :
    exec (.sneVxNn x nn) s = .next (s.advance.skipIf (s.getV x != nn)) := rfl

theorem exec_seVxVy (x y : RegIx) (s : State) :
    exec (.seVxVy x y) s = .next (s.advance.skipIf (s.getV x == s.getV y)) := rfl

theorem exec_sneVxVy (x y : RegIx) (s : State) :
    exec (.sneVxVy x y) s = .next (s.advance.skipIf (s.getV x != s.getV y)) := rfl

/-- Settles O18: `JP nnn` only replaces `pc`, and widening `nnn` to a word keeps its value. -/
theorem jpGoesToAddress : Obligations.JpGoesToAddress :=
  fun nnn s => ⟨s.setPc (zext16 nnn), exec_jp nnn s, zext16_toNat nnn, s.unchanged_setPc [] _⟩

/-- Settles O22: each of the four is a conditional skip, and the Boolean it tests decides the stated condition. -/
theorem comparesSkipNextInstruction : Obligations.ComparesSkipNextInstruction := by
  intro x y nn s
  refine ⟨?se_imm, ?sne_imm, ?se_reg, ?sne_reg⟩
  case se_imm => exact ⟨_, exec_seVxNn x nn s, s.advance_skipIf_spec beq_iff_eq⟩
  case sne_imm => exact ⟨_, exec_sneVxNn x nn s, s.advance_skipIf_spec bne_iff_ne⟩
  case se_reg => exact ⟨_, exec_seVxVy x y s, s.advance_skipIf_spec beq_iff_eq⟩
  case sne_reg => exact ⟨_, exec_sneVxVy x y s, s.advance_skipIf_spec bne_iff_ne⟩

end Sys2Proof.Machine
end

section
/-! PROOF. Register loads and the immediate add: `LD Vx,nn` (R115), `ADD Vx,nn` (R116), `LD Vx,Vy` (R117). -/

namespace Sys2Proof.Machine

theorem State.unchanged_setV (s : State) (x : RegIx) (b : Byte) : Unchanged [.regs] s (s.setV x b) := by
  intro p hp
  cases p with
  | regs => exact absurd (List.mem_singleton_self Part.regs) hp
  | _ => simp [Part.same]

/-- The whole effect of an instruction that advances and writes one register, `VF` being a register like any other. -/
theorem State.writesReg_advance_setV (s : State) (x : RegIx) (b : Byte) : WritesReg x b s (s.advance.setV x b) := by
  refine ⟨?written, ?others, ?frame⟩
  case written => rw [State.getV_setV, if_pos rfl]
  case others =>
    intro k hk
    have hne : k ≠ x := fun h => hk (List.mem_singleton.mpr h)
    rw [State.getV_setV, if_neg hne, State.advance_eq, State.getV_setPc]
  case frame => exact (s.straight_advance [.regs]).trans_unchanged rfl (s.advance.unchanged_setV x b)

theorem exec_ldVxNn (x : RegIx) (nn : Byte) (s : State) :
    exec (.ldVxNn x nn) s = .next (s.advance.setV x nn) := rfl

theorem exec_addVxNn (x : RegIx) (nn : Byte) (s : State) :
    exec (.addVxNn x nn) s = .next (s.advance.setV x (s.getV x + nn)) := rfl

theorem exec_ldVxVy (x y : RegIx) (s : State) :
    exec (.ldVxVy x y) s = .next (s.advance.setV x (s.getV y)) := rfl

/-- Byte addition wraps modulo 256 (R127). -/
theorem ofNat_add_mod_256 (a b : Byte) : BitVec.ofNat 8 ((a.toNat + b.toNat) % 256) = a + b :=
  BitVec.eq_of_toNat_eq (by simp)

/-- Settles O24: each of the three writes one register after the advance, and the stated sum is that of bytes. -/
theorem registerLoadsAndAddImmediate : Obligations.RegisterLoadsAndAddImmediate := by
  intro x y nn s
  refine ⟨?ld_imm, ?add_imm, ?ld_reg⟩
  case ld_imm => exact ⟨_, exec_ldVxNn x nn s, s.writesReg_advance_setV x nn⟩
  case add_imm =>
    rw [ofNat_add_mod_256]
    exact ⟨_, exec_addVxNn x nn s, s.writesReg_advance_setV x _⟩
  case ld_reg => exact ⟨_, exec_ldVxVy x y s, s.writesReg_advance_setV x _⟩

end Sys2Proof.Machine
end

section
/-! PROOF. The flag-bank transfers: `LD R,Vx` (R143) and `LD Vx,R` (R144). -/

namespace Sys2Proof.Machine

/-- `rpl` after `V0..Vx` are copied to it: the entries above `x` stay. -/
def State.rplUpTo (x : RegIx) (s : State) : Vector Byte 16 :=
  Vector.ofFn fun k => if k ≤ x then s.getV k else s.rpl[k.val]

theorem State.getElem_rplUpTo (x k : RegIx) (s : State) :
    (s.rplUpTo x)[k.val] = if k ≤ x then s.getV k else s.rpl[k.val] :=
  Vector.getElem_ofFn k.isLt

theorem State.unchanged_setRpl (s : State) (v : Vector Byte 16) : Unchanged [.rpl] s (s.setRpl v) := by
  intro p hp
  cases p with
  | rpl => exact absurd (List.mem_singleton_self Part.rpl) hp
  | _ => simp [Part.same]

theorem State.unchanged_setRegsUpTo (s : State) (x : RegIx) (g : RegIx → Byte) :
    Unchanged [.regs] s (s.setRegsUpTo x g) := by
  intro p hp
  cases p with
  | regs => exact absurd (List.mem_singleton_self Part.regs) hp
  | _ => simp [Part.same]

theorem exec_ldRVx (x : RegIx) (s : State) :
    exec (.ldRVx x) s = .next (s.advance.setRpl (s.rplUpTo x)) := rfl

theorem exec_ldVxR (x : RegIx) (s : State) :
    exec (.ldVxR x) s = .next (s.advance.setRegsUpTo x fun k => s.rpl[k.val]) := rfl

/-- Settles O36: after the advance each instruction replaces one of the two files, and reading the new file at `k`
splits on `k ≤ x`. -/
theorem flagBankTransfers : Obligations.FlagBankTransfers := by
  intro x s
  refine ⟨⟨_, exec_ldRVx x s, fun k => ?bankRead, ?bankFrame⟩, ⟨_, exec_ldVxR x s, fun k => ?regRead, ?regFrame⟩⟩
  case bankRead => rw [State.setRpl_rpl, State.getElem_rplUpTo]
  case bankFrame => exact (s.straight_advance [.rpl]).trans_unchanged rfl (s.advance.unchanged_setRpl _)
  case regRead => rw [State.getV_setRegsUpTo, State.advance_eq, State.getV_setPc]
  case regFrame => exact (s.straight_advance [.regs]).trans_unchanged rfl (s.advance.unchanged_setRegsUpTo x _)

end Sys2Proof.Machine
end

section
/-! PROOF. The timer transfers: `LD Vx,DT` (R163), `LD DT,Vx` (R165) and `LD ST,Vx` (R166). -/

namespace Sys2Proof.Machine

theorem State.unchanged_setDelay (s : State) (b : Byte) : Unchanged [.delay] s (s.setDelay b) := by
  intro p hp
  cases p with
  | delay => exact absurd (List.mem_singleton_self Part.delay) hp
  | _ => simp [Part.same]

theorem State.unchanged_setSound (s : State) (b : Byte) : Unchanged [.sound] s (s.setSound b) := by
  intro p hp
  cases p with
  | sound => exact absurd (List.mem_singleton_self Part.sound) hp
  | _ => simp [Part.same]

theorem exec_ldVxDt (x : RegIx) (s : State) : exec (.ldVxDt x) s = .next (s.advance.setV x s.delay) := rfl

theorem exec_ldDtVx (x : RegIx) (s : State) : exec (.ldDtVx x) s = .next (s.advance.setDelay (s.getV x)) := rfl

theorem exec_ldStVx (x : RegIx) (s : State) : exec (.ldStVx x) s = .next (s.advance.setSound (s.getV x)) := rfl

/-- Settles O44: after the advance each of the three replaces one piece of the state, a register or a timer, by the
value the other had before fetch. -/
theorem timerTransfers : Obligations.TimerTransfers := by
  intro x s
  refine ⟨?readDelay, ?writeDelay, ?writeSound⟩
  case readDelay => exact ⟨_, exec_ldVxDt x s, s.writesReg_advance_setV x s.delay⟩
  case writeDelay =>
    exact ⟨_, exec_ldDtVx x s, State.setDelay_delay _ _,
      (s.straight_advance [.delay]).trans_unchanged rfl (s.advance.unchanged_setDelay _)⟩
  case writeSound =>
    exact ⟨_, exec_ldStVx x s, State.setSound_sound _ _,
      (s.straight_advance [.sound]).trans_unchanged rfl (s.advance.unchanged_setSound _)⟩

end Sys2Proof.Machine
end

section
/-! SUPPORT. What a call of the host starts from, and the frames of the updates the host's operations are made of. -/

namespace Sys2Proof.Machine

/-- A frame may be read with more pieces let go. -/
theorem Unchanged.mono {parts parts' : List Part} {s t : State} (hsub : parts ⊆ parts') (hst : Unchanged parts s t) :
    Unchanged parts' s t :=
  fun p hp => hst p fun hmem => hp (hsub hmem)

theorem State.unchanged_setPending (s : State) (ops : List HostOp) : Unchanged [.pending] s (s.setPending ops) := by
  intro p hp
  cases p with
  | pending => exact absurd (List.mem_singleton_self Part.pending) hp
  | _ => simp [Part.same]

theorem State.unchanged_setLatch (s : State) (b : Bool) : Unchanged [.latch] s (s.setLatch b) := by
  intro p hp
  cases p with
  | latch => exact absurd (List.mem_singleton_self Part.latch) hp
  | _ => simp [Part.same]

theorem State.unchanged_setProfile (s : State) (q : Profile) : Unchanged [.profile] s (s.setProfile q) := by
  intro p hp
  cases p with
  | profile => exact absurd (List.mem_singleton_self Part.profile) hp
  | _ => simp [Part.same]

/-- A step with a call pending makes the oldest one, from the state in which it is no longer pending (R6). -/
theorem step_of_pending_cons {s : State} {op : HostOp} {rest : List HostOp} (hp : s.pending = op :: rest) :
    step s = hostCall op (s.setPending rest) := by
  rw [step, hp]

/-- The frame of a step that makes the oldest call is the call's own, with the list of pending calls let go. -/
theorem Unchanged.of_setPending {parts : List Part} {s t : State} {rest : List HostOp}
    (h : Unchanged parts (s.setPending rest) t) (hpend : .pending ∈ parts) : Unchanged parts s t :=
  ((s.unchanged_setPending rest).mono (List.cons_subset.mpr ⟨hpend, List.nil_subset _⟩)).trans h

end Sys2Proof.Machine
end

section
/-! PROOF. The host's `timer_tick` (R185) and `select_profile` (R181, R26). -/

namespace Sys2Proof.Machine

/-- A timer saturates at zero: truncated subtraction on its value. -/
theorem timerDown_toNat (b : Byte) : (timerDown b).toNat = b.toNat - 1 := by
  unfold timerDown
  split
  case isTrue hzero => rw [hzero]; rfl
  case isFalse hpos =>
    have hne : b.toNat ≠ 0 := fun h => hpos (BitVec.eq_of_toNat_eq h)
    exact BitVec.toNat_sub_of_le (BitVec.le_def.mpr (Nat.one_le_iff_ne_zero.mpr hne))

theorem step_timerTick {s : State} {rest : List HostOp} (hp : s.pending = .timerTick :: rest) :
    step s = .next (hostTimerTick (s.setPending rest)) := step_of_pending_cons hp

theorem hostTimerTick_unchanged (s : State) : Unchanged [.latch, .delay, .sound] s (hostTimerTick s) := by
  have hlatch := s.unchanged_setLatch false
  have hdelay := (s.setLatch false).unchanged_setDelay (timerDown s.delay)
  have hsound := ((s.setLatch false).setDelay (timerDown s.delay)).unchanged_setSound (timerDown s.sound)
  exact ((hlatch.mono (by simp)).trans (hdelay.mono (by simp))).trans (hsound.mono (by simp))

/-- Settles O45: the tick replaces the latch and the two timers and no other piece, without looking at the profile or
at the fault. -/
theorem timerTickCountsDown : Obligations.TimerTickCountsDown := by
  intro s rest hp
  refine ⟨_, step_timerTick hp, rfl, timerDown_toNat s.delay, timerDown_toNat s.sound, rfl, rfl, ?frame⟩
  case frame =>
    exact ((hostTimerTick_unchanged (s.setPending rest)).mono (by simp)).of_setPending (by simp)

theorem step_selectProfile {s : State} {rest : List HostOp} {name : String}
    (hp : s.pending = .selectProfile name :: rest) :
    step s = .next ((s.setPending rest).setProfile (Profile.ofName name)) := step_of_pending_cons hp

/-- The bundle a name selects, written out as the row of R26's table. -/
theorem Profile.quirks_ofName (name : String) :
    (Profile.ofName name).quirks =
      (if name = "schip" then ⟨true, true, true, true, false, false, 3583⟩
        else if name = "xo" then ⟨false, false, false, false, false, false, 65024⟩
        else ⟨false, false, true, false, true, true, 3232⟩) := by
  unfold Profile.ofName
  split
  case isTrue => rfl
  case isFalse => split <;> rfl

/-- Settles O47: the call replaces the profile alone, and the switches in force are those of the profile's bundle. -/
theorem selectProfileSwitchesBundle : Obligations.SelectProfileSwitchesBundle := by
  intro s rest name hp
  refine ⟨_, step_selectProfile hp, rfl, rfl, ?frame, Profile.quirks_ofName name⟩
  case frame =>
    exact (((s.setPending rest).unchanged_setProfile _).mono (by simp)).of_setPending (by simp)

end Sys2Proof.Machine
end

section
/-! SUPPORT. The fields of a word, the words packed from fields, and the two directions between them (R61, R62). -/

namespace Sys2Proof

@[simp] theorem op1_packNibbles (a b c d : Fin 16) : op1 (packNibbles a b c d) = a := by
  apply Fin.ext; simp only [op1, packNibbles, BitVec.toNat_ofNat]; omega

@[simp] theorem op2_packNibbles (a b c d : Fin 16) : op2 (packNibbles a b c d) = b := by
  apply Fin.ext; simp only [op2, packNibbles, BitVec.toNat_ofNat]; omega

@[simp] theorem op3_packNibbles (a b c d : Fin 16) : op3 (packNibbles a b c d) = c := by
  apply Fin.ext; simp only [op3, packNibbles, BitVec.toNat_ofNat]; omega

@[simp] theorem op4_packNibbles (a b c d : Fin 16) : op4 (packNibbles a b c d) = d := by
  apply Fin.ext; simp only [op4, packNibbles, BitVec.toNat_ofNat]; omega

@[simp] theorem op1_packXnn (a x : Fin 16) (nn : Byte) : op1 (packXnn a x nn) = a := by
  have := nn.isLt
  apply Fin.ext; simp only [op1, packXnn, BitVec.toNat_ofNat]; omega

@[simp] theorem op2_packXnn (a x : Fin 16) (nn : Byte) : op2 (packXnn a x nn) = x := by
  have := nn.isLt
  apply Fin.ext; simp only [op2, packXnn, BitVec.toNat_ofNat]; omega

@[simp] theorem immNn_packXnn (a x : Fin 16) (nn : Byte) : immNn (packXnn a x nn) = nn := by
  have := nn.isLt
  apply BitVec.eq_of_toNat_eq; simp only [immNn, packXnn, BitVec.toNat_ofNat]; omega

theorem packNnn_toNat (a : Fin 16) (nnn : Imm12) : (packNnn a nnn).toNat = a.val * 4096 + nnn.toNat := by
  have := nnn.isLt
  simp only [packNnn, BitVec.toNat_ofNat]; omega

@[simp] theorem op1_packNnn (a : Fin 16) (nnn : Imm12) : op1 (packNnn a nnn) = a := by
  have := nnn.isLt
  apply Fin.ext; simp only [op1, packNnn_toNat]; omega

@[simp] theorem immNnn_packNnn (a : Fin 16) (nnn : Imm12) : immNnn (packNnn a nnn) = nnn := by
  have := nnn.isLt
  apply BitVec.eq_of_toNat_eq; simp only [immNnn, packNnn_toNat, BitVec.toNat_ofNat]; omega

/-- A word is its four nibbles. -/
theorem packNibbles_ops (w : Word) : packNibbles (op1 w) (op2 w) (op3 w) (op4 w) = w := by
  have := w.isLt
  apply BitVec.eq_of_toNat_eq; simp only [op1, op2, op3, op4, packNibbles, BitVec.toNat_ofNat]; omega

/-- A word is its two upper nibbles and its low byte. -/
theorem packXnn_ops (w : Word) : packXnn (op1 w) (op2 w) (immNn w) = w := by
  have := w.isLt
  apply BitVec.eq_of_toNat_eq; simp only [op1, op2, immNn, packXnn, BitVec.toNat_ofNat]; omega

/-- A word is its top nibble and its low twelve bits. -/
theorem packNnn_ops (w : Word) : packNnn (op1 w) (immNnn w) = w := by
  have := w.isLt
  apply BitVec.eq_of_toNat_eq; simp only [op1, immNnn, packNnn, BitVec.toNat_ofNat]; omega

/-- The check on `SYS` says that the word is none of the seven earlier rows of group 0 (R65). -/
theorem sysAddrOk_iff (nnn : Imm12) : Instr.sysAddrOk nnn = true ↔
    nnn.toNat ≠ 0x0E0 ∧ nnn.toNat ≠ 0x0EE ∧ nnn.toNat / 16 ≠ 0x0C ∧ nnn.toNat ≠ 0x0FB ∧ nnn.toNat ≠ 0x0FC ∧
      nnn.toNat ≠ 0x0FE ∧ nnn.toNat ≠ 0x0FF := by
  simp [Instr.sysAddrOk, BitVec.toNat_eq, and_assoc]

theorem decodeGroup0_sys (nnn : Imm12) (h : Instr.sysAddrOk nnn = true) :
    decodeGroup0 (packNnn 0 nnn) = .sys nnn := by
  obtain ⟨hcls, hret, hscd, hscr, hscl, hlow, hhigh⟩ := (sysAddrOk_iff nnn).1 h
  have hw : (packNnn 0 nnn).toNat = nnn.toNat := by simp [packNnn_toNat]
  simp [decodeGroup0, BitVec.toNat_eq, *]

/-- Decoding undoes encoding: each field of the packed word is read back, and the fixed ones choose the arm. -/
theorem decode_encode (i : Instr) (h : i.wellFormed = true) : decode (encode i) = .ok i := by
  cases i with
  | cls | ret | scr | scl | low | high => rfl
  | scd n => revert n; decide
  | sys nnn => simp [encode, decode, decodeGroup0_sys nnn h]
  | ldVxVy | orVxVy | andVxVy | xorVxVy | addVxVy | subVxVy | shrVxVy | subnVxVy | shlVxVy =>
    simp [encode, decode, decodeGroup8]
  | skp | sknp => simp [encode, decode, decodeGroupE]
  | ldVxDt | ldVxK | ldDtVx | ldStVx | addIVx | ldFVx | ldHfVx | ldBVx | ldMemVx | ldVxMem | ldRVx | ldVxR =>
    simp [encode, decode, decodeGroupF]
  | _ => simp [encode, decode]

theorem decodeBytes_encodeBytes (i : Instr) (rest : List Byte) (h : i.wellFormed = true) :
    decodeBytes (encodeBytes i ++ rest) = .ok (i, rest) := by
  simp [encodeBytes, decodeBytes, Machine.wordOfBytes_bytes, decode_encode i h]

/-- Settles O1: the bytes of the encoding are the bytes of its word, whatever follows them. -/
theorem decodeOfEncode : Obligations.DecodeOfEncode :=
  fun i h => ⟨decode_encode i h, fun rest => decodeBytes_encodeBytes i rest h⟩

end Sys2Proof
end

section
/-! PROOF. What the decoder answers encodes to the word it was given (R63, R69). -/

namespace Sys2Proof

/-- A word packed from four nibbles, told by its fields. -/
theorem packNibbles_eq_iff (a b c d : Fin 16) (w : Word) : packNibbles a b c d = w ↔
    (op1 w).val = a.val ∧ (op2 w).val = b.val ∧ (op3 w).val = c.val ∧ (op4 w).val = d.val := by
  constructor
  · rintro rfl; simp
  · simp only [Fin.val_inj]; rintro ⟨rfl, rfl, rfl, rfl⟩; exact packNibbles_ops w

/-- A word packed with a byte, told by its fields. -/
theorem packXnn_eq_iff (a x : Fin 16) (nn : Byte) (w : Word) : packXnn a x nn = w ↔
    (op1 w).val = a.val ∧ (op2 w).val = x.val ∧ (immNn w).toNat = nn.toNat := by
  constructor
  · rintro rfl; simp
  · simp only [Fin.val_inj, BitVec.toNat_inj]; rintro ⟨rfl, rfl, rfl⟩; exact packXnn_ops w

/-- A word packed with twelve bits, told by its fields. -/
theorem packNnn_eq_iff (a : Fin 16) (nnn : Imm12) (w : Word) : packNnn a nnn = w ↔
    (op1 w).val = a.val ∧ (immNnn w).toNat = nnn.toNat := by
  constructor
  · rintro rfl; simp
  · simp only [Fin.val_inj, BitVec.toNat_inj]; rintro ⟨rfl, rfl⟩; exact packNnn_ops w

theorem op1_val (w : Word) : (op1 w).val = w.toNat / 4096 := by
  have := w.isLt
  simp only [op1]; omega

theorem op4_val (w : Word) : (op4 w).val = w.toNat % 16 := rfl

theorem immNn_toNat (w : Word) : (immNn w).toNat = w.toNat % 256 := BitVec.toNat_ofNat ..

theorem encode_decodeGroup0 (w : Word) (h : (op1 w).val = 0) :
    (decodeGroup0 w).wellFormed = true ∧ encode (decodeGroup0 w) = w := by
  unfold decodeGroup0
  split_ifs with hcls hret hscd hscr hscl hlow hhigh
  case pos => exact ⟨rfl, hcls.symm⟩
  case pos => exact ⟨rfl, hret.symm⟩
  case pos =>
    have h2 : (op2 w).val = 0 := by simp only [op2]; omega
    have h3 : (op3 w).val = 12 := by simp only [op3]; omega
    exact ⟨rfl, (packNibbles_eq_iff ..).2 ⟨h, h2, h3, rfl⟩⟩
  case pos => exact ⟨rfl, hscr.symm⟩
  case pos => exact ⟨rfl, hscl.symm⟩
  case pos => exact ⟨rfl, hlow.symm⟩
  case pos => exact ⟨rfl, hhigh.symm⟩
  case neg =>
    have hn : (immNnn w).toNat = w.toNat := by
      rw [op1_val] at h
      simp only [immNnn, BitVec.toNat_ofNat]; omega
    refine ⟨(sysAddrOk_iff _).2 ?_, (packNnn_eq_iff ..).2 ⟨h, rfl⟩⟩
    simp_all [BitVec.toNat_eq]

theorem encode_of_decodeGroup8 {w : Word} {i : Instr} (h : (op1 w).val = 8) (hd : decodeGroup8 w = .ok i) :
    i.wellFormed = true ∧ encode i = w := by
  unfold decodeGroup8 at hd
  split at hd <;> cases hd <;> exact ⟨rfl, by simp [encode, packNibbles_eq_iff, *]⟩

theorem encode_of_decodeGroupE {w : Word} {i : Instr} (h : (op1 w).val = 14) (hd : decodeGroupE w = .ok i) :
    i.wellFormed = true ∧ encode i = w := by
  unfold decodeGroupE at hd
  split at hd <;> cases hd <;> exact ⟨rfl, by simp [encode, packXnn_eq_iff, *]⟩

theorem encode_of_decodeGroupF {w : Word} {i : Instr} (h : (op1 w).val = 15) (hd : decodeGroupF w = .ok i) :
    i.wellFormed = true ∧ encode i = w := by
  unfold decodeGroupF at hd
  split at hd <;> cases hd <;> exact ⟨rfl, by simp [encode, packXnn_eq_iff, *]⟩

/-- Settles O2: in each group the answer repeats the fields of the word, and the arm it stands in fixes the others. -/
theorem encodeOfDecode : Obligations.EncodeOfDecode := by
  intro w i hd
  unfold decode at hd
  split at hd
  case h_1 h => cases hd; exact encode_decodeGroup0 w h
  case h_9 h => exact encode_of_decodeGroup8 h hd
  case h_15 h => exact encode_of_decodeGroupE h hd
  case h_16 =>
    have h : (op1 w).val = 15 := by grind
    exact encode_of_decodeGroupF h hd
  case h_6 h | h_10 h =>
    split_ifs at hd with hlow
    cases hd
    exact ⟨rfl, (packNibbles_eq_iff ..).2 ⟨h, rfl, rfl, congrArg Fin.val hlow⟩⟩
  case h_14 h => cases hd; exact ⟨rfl, (packNibbles_eq_iff ..).2 ⟨h, rfl, rfl, rfl⟩⟩
  case h_4 h | h_5 h | h_7 h | h_8 h | h_13 h => cases hd; exact ⟨rfl, (packXnn_eq_iff ..).2 ⟨h, rfl, rfl⟩⟩
  all_goals next h => cases hd; exact ⟨rfl, (packNnn_eq_iff ..).2 ⟨h, rfl⟩⟩

end Sys2Proof
end

section
/-! PROOF. The rows of the opcode table as conditions on the fields of a word, and the decoder as a search among them
(R63, R66). -/

namespace Sys2Proof

theorem op1_and (w m : Word) : (op1 (w &&& m)).val = (op1 w).val &&& (op1 m).val := by
  simp only [op1, BitVec.toNat_and, show 4096 = 2 ^ 12 from rfl, show 16 = 2 ^ 4 from rfl, Nat.and_div_two_pow,
    Nat.and_mod_two_pow]

theorem op2_and (w m : Word) : (op2 (w &&& m)).val = (op2 w).val &&& (op2 m).val := by
  simp only [op2, BitVec.toNat_and, show 256 = 2 ^ 8 from rfl, show 16 = 2 ^ 4 from rfl, Nat.and_div_two_pow,
    Nat.and_mod_two_pow]

theorem op3_and (w m : Word) : (op3 (w &&& m)).val = (op3 w).val &&& (op3 m).val := by
  simp only [op3, BitVec.toNat_and, show 16 = 2 ^ 4 from rfl, Nat.and_div_two_pow, Nat.and_mod_two_pow]

theorem op4_and (w m : Word) : (op4 (w &&& m)).val = (op4 w).val &&& (op4 m).val := by
  simp only [op4, BitVec.toNat_and, show 16 = 2 ^ 4 from rfl, Nat.and_mod_two_pow]

/-- A nibble under a full mask. -/
theorem nibble_and_full (x : Fin 16) : x.val &&& 15 = x.val := Nat.and_two_pow_sub_one_of_lt_two_pow (n := 4) x.isLt

/-- A masked word compared with four nibbles, nibble by nibble. -/
theorem and_eq_packNibbles_iff (w m : Word) (a b c d : Fin 16) : w &&& m = packNibbles a b c d ↔
    (op1 w).val &&& (op1 m).val = a.val ∧ (op2 w).val &&& (op2 m).val = b.val ∧
      (op3 w).val &&& (op3 m).val = c.val ∧ (op4 w).val &&& (op4 m).val = d.val := by
  rw [eq_comm, packNibbles_eq_iff, op1_and, op2_and, op3_and, op4_and]

/-- The row of the words with top nibble `a`. -/
def OpcodeRow.top (a : Fin 16) : OpcodeRow := ⟨packNibbles 15 0 0 0, packNibbles a 0 0 0⟩

/-- The row of the words with top nibble `a` and low nibble `d`. -/
def OpcodeRow.topLow (a d : Fin 16) : OpcodeRow := ⟨packNibbles 15 0 0 15, packNibbles a 0 0 d⟩

/-- The row of the words with top nibble `a` and low byte `c`, `d`. -/
def OpcodeRow.topByte (a c d : Fin 16) : OpcodeRow := ⟨packNibbles 15 0 15 15, packNibbles a 0 c d⟩

/-- The row of the words of upper nibbles 0, 0 and `c`. -/
def OpcodeRow.count (c : Fin 16) : OpcodeRow := ⟨packNibbles 15 15 15 0, packNibbles 0 0 c 0⟩

/-- The row of one word with high byte zero. -/
def OpcodeRow.word (p : Byte) : OpcodeRow := ⟨BitVec.allOnes 16, p.setWidth 16⟩

@[simp] theorem OpcodeRow.selects_top (a : Fin 16) (w : Word) :
    (OpcodeRow.top a).selects w = decide ((op1 w).val = a.val) := by
  rw [Bool.eq_iff_iff, decide_eq_true_iff]
  simp [OpcodeRow.selects, OpcodeRow.top, and_eq_packNibbles_iff, nibble_and_full]

@[simp] theorem OpcodeRow.selects_topLow (a d : Fin 16) (w : Word) :
    (OpcodeRow.topLow a d).selects w = decide ((op1 w).val = a.val ∧ (op4 w).val = d.val) := by
  rw [Bool.eq_iff_iff, decide_eq_true_iff]
  simp [OpcodeRow.selects, OpcodeRow.topLow, and_eq_packNibbles_iff, nibble_and_full]

@[simp] theorem OpcodeRow.selects_topByte (a c d : Fin 16) (w : Word) :
    (OpcodeRow.topByte a c d).selects w =
      decide ((op1 w).val = a.val ∧ (immNn w).toNat = c.val * 16 + d.val) := by
  have hlow : (op3 w).val = c.val ∧ (op4 w).val = d.val ↔ (immNn w).toNat = c.val * 16 + d.val := by
    simp only [op3, op4, immNn_toNat]; omega
  rw [Bool.eq_iff_iff, decide_eq_true_iff]
  simp [OpcodeRow.selects, OpcodeRow.topByte, and_eq_packNibbles_iff, nibble_and_full, hlow]

@[simp] theorem OpcodeRow.selects_count (c : Fin 16) (w : Word) :
    (OpcodeRow.count c).selects w = decide ((op1 w).val = 0 ∧ w.toNat / 16 = c.val) := by
  have hupper : (op1 w).val = 0 ∧ (op2 w).val = 0 ∧ (op3 w).val = c.val ↔
      (op1 w).val = 0 ∧ w.toNat / 16 = c.val := by
    simp only [op1_val, op2, op3]; omega
  rw [Bool.eq_iff_iff, decide_eq_true_iff, ← hupper]
  simp [OpcodeRow.selects, OpcodeRow.count, and_eq_packNibbles_iff, nibble_and_full]

@[simp] theorem OpcodeRow.selects_word (p : Byte) (w : Word) :
    (OpcodeRow.word p).selects w = decide ((op1 w).val = 0 ∧ w = p.setWidth 16) := by
  have hzero : w = p.setWidth 16 → (op1 w).val = 0 := by
    rintro rfl
    have := p.isLt
    rw [op1_val, BitVec.toNat_setWidth]; omega
  rw [Bool.eq_iff_iff, decide_eq_true_iff, and_iff_right_of_imp hzero]
  rw [OpcodeRow.selects, OpcodeRow.word, beq_iff_eq, BitVec.and_allOnes]

/-- The opcode table by the fields its rows fix. -/
theorem opcodeTable_eq : opcodeTable =
    [.word 0xE0, .word 0xEE, .count 0xC, .word 0xFB, .word 0xFC, .word 0xFE, .word 0xFF,
      .top 0x0, .top 0x1, .top 0x2, .top 0x3, .top 0x4, .topLow 0x5 0x0, .top 0x6, .top 0x7,
      .topLow 0x8 0x0, .topLow 0x8 0x1, .topLow 0x8 0x2, .topLow 0x8 0x3, .topLow 0x8 0x4, .topLow 0x8 0x5,
      .topLow 0x8 0x6, .topLow 0x8 0x7, .topLow 0x8 0xE, .topLow 0x9 0x0, .top 0xA, .top 0xB, .top 0xC, .top 0xD,
      .topByte 0xE 0x9 0xE, .topByte 0xE 0xA 0x1,
      .topByte 0xF 0x0 0x7, .topByte 0xF 0x0 0xA, .topByte 0xF 0x1 0x5, .topByte 0xF 0x1 0x8, .topByte 0xF 0x1 0xE,
      .topByte 0xF 0x2 0x9, .topByte 0xF 0x3 0x0, .topByte 0xF 0x3 0x3, .topByte 0xF 0x5 0x5, .topByte 0xF 0x6 0x5,
      .topByte 0xF 0x7 0x5, .topByte 0xF 0x8 0x5] := rfl

/-- The row of the instruction a decoder answers. -/
def decodedRow (d : Except DecodeError Instr) : Option OpcodeRow :=
  match d with
  | .ok i => some i.row
  | .error _ => none

/-- The first row of the table that selects the word (R63). -/
def firstRow (w : Word) : Option OpcodeRow := opcodeTable.find? fun r => r.selects w

/-! In each group the conditions of the rows of the other groups are false by the top nibble; the search among the rest
follows the decoder's own case split. -/

theorem firstRow_of_group0 (w : Word) (h : (op1 w).val = 0) : firstRow w = decodedRow (.ok (decodeGroup0 w)) := by
  unfold decodeGroup0
  split_ifs <;> simp_all [firstRow, opcodeTable_eq] <;> rfl

theorem firstRow_of_group8 (w : Word) (h : (op1 w).val = 8) : firstRow w = decodedRow (decodeGroup8 w) := by
  unfold decodeGroup8
  split <;> simp_all [firstRow, opcodeTable_eq] <;> rfl

theorem firstRow_of_groupE (w : Word) (h : (op1 w).val = 14) : firstRow w = decodedRow (decodeGroupE w) := by
  unfold decodeGroupE
  split <;> simp_all [firstRow, opcodeTable_eq] <;> rfl

theorem firstRow_of_groupF (w : Word) (h : (op1 w).val = 15) : firstRow w = decodedRow (decodeGroupF w) := by
  unfold decodeGroupF
  split <;> simp_all [firstRow, opcodeTable_eq] <;> rfl

/-- Settles O3: the top nibble leaves the rows of one group, among which the decoder's arm is the one that selects. -/
theorem decodeIsFirstMatchingRow : Obligations.DecodeIsFirstMatchingRow := by
  intro w
  change firstRow w = decodedRow (decode w)
  unfold decode
  split
  case h_1 h => exact firstRow_of_group0 w h
  case h_9 h => exact firstRow_of_group8 w h
  case h_15 h => exact firstRow_of_groupE w h
  case h_16 => exact firstRow_of_groupF w (by grind)
  case h_6 h | h_10 h => split_ifs <;> simp_all [firstRow, opcodeTable_eq] <;> rfl
  all_goals simp_all [firstRow, opcodeTable_eq]; rfl

end Sys2Proof
end

section
/-! PROOF. The words no row takes, and their one refusal (R67); a word of each family. -/

namespace Sys2Proof

theorem decodeGroup8_error_iff (w : Word) : decodeGroup8 w = .error (.unknownOpcode w) ↔
    w.toNat % 16 ∈ [0x8, 0x9, 0xA, 0xB, 0xC, 0xD, 0xF] := by
  have := (op4 w).isLt
  rw [← op4_val]
  unfold decodeGroup8
  split
  case h_10 =>
    refine iff_of_true rfl ?_
    simp only [List.mem_cons, List.not_mem_nil, or_false]
    grind
  all_goals simp [*]

theorem decodeGroupE_error_iff (w : Word) : decodeGroupE w = .error (.unknownOpcode w) ↔
    w.toNat % 256 ∉ [0x9E, 0xA1] := by
  rw [← immNn_toNat]
  unfold decodeGroupE
  split <;> simp_all

theorem decodeGroupF_error_iff (w : Word) : decodeGroupF w = .error (.unknownOpcode w) ↔
    w.toNat % 256 ∉ [0x07, 0x0A, 0x15, 0x18, 0x1E, 0x29, 0x30, 0x33, 0x55, 0x65, 0x75, 0x85] := by
  rw [← immNn_toNat]
  unfold decodeGroupF
  split <;> simp_all

/-- The groups that check their low nibble refuse a word exactly when it is not zero. -/
theorem ite_low_error_iff (w : Word) (i : Instr) :
    (if op4 w = 0 then Except.ok i else .error (DecodeError.unknownOpcode w)) = .error (.unknownOpcode w) ↔
      w.toNat % 16 ≠ 0 := by
  simp [← op4_val]

theorem decode_error_iff (w : Word) : decode w = .error (.unknownOpcode w) ↔
      (w.toNat / 4096 = 5 ∧ w.toNat % 16 ≠ 0) ∨
      (w.toNat / 4096 = 8 ∧ w.toNat % 16 ∈ [0x8, 0x9, 0xA, 0xB, 0xC, 0xD, 0xF]) ∨
      (w.toNat / 4096 = 9 ∧ w.toNat % 16 ≠ 0) ∨
      (w.toNat / 4096 = 14 ∧ w.toNat % 256 ∉ [0x9E, 0xA1]) ∨
      (w.toNat / 4096 = 15 ∧
        w.toNat % 256 ∉ [0x07, 0x0A, 0x15, 0x18, 0x1E, 0x29, 0x30, 0x33, 0x55, 0x65, 0x75, 0x85]) := by
  rw [← decodeGroup8_error_iff, ← decodeGroupE_error_iff, ← decodeGroupF_error_iff, ← op1_val]
  unfold decode
  split
  case h_16 =>
    have h : (op1 w).val = 15 := by grind
    simp [h]
  case h_6 h | h_10 h => rw [ite_low_error_iff]; simp [h]
  all_goals next h => simp [h]

theorem eq_of_decodeGroup8_error {w : Word} {e : DecodeError} (h : decodeGroup8 w = .error e) :
    e = .unknownOpcode w := by
  unfold decodeGroup8 at h
  split at h <;> cases h
  rfl

theorem eq_of_decodeGroupE_error {w : Word} {e : DecodeError} (h : decodeGroupE w = .error e) :
    e = .unknownOpcode w := by
  unfold decodeGroupE at h
  split at h <;> cases h
  rfl

theorem eq_of_decodeGroupF_error {w : Word} {e : DecodeError} (h : decodeGroupF w = .error e) :
    e = .unknownOpcode w := by
  unfold decodeGroupF at h
  split at h <;> cases h
  rfl

/-- Whatever the decoder refuses, it names the word. -/
theorem eq_of_decode_error {w : Word} {e : DecodeError} (h : decode w = .error e) : e = .unknownOpcode w := by
  unfold decode at h
  split at h
  case h_9 => exact eq_of_decodeGroup8_error h
  case h_15 => exact eq_of_decodeGroupE_error h
  case h_16 => exact eq_of_decodeGroupF_error h
  case h_6 | h_10 => split_ifs at h; cases h; rfl
  all_goals cases h

/-- Settles O4: within the five groups that check a field, the words that no arm names are refused. -/
theorem illegalWordsExact : Obligations.IllegalWordsExact :=
  fun w => ⟨decode_error_iff w, fun _ => eq_of_decode_error⟩

/-- Settles O5: the decoder evaluates on a word that is written out. -/
theorem wordsOfEachFamily : Obligations.WordsOfEachFamily :=
  ⟨rfl, rfl, rfl, rfl, rfl, rfl, rfl, rfl, rfl⟩

end Sys2Proof
end

section
/-! PROOF. The scrolls `SCD`, `SCR` and `SCL` (R92 to R94), and the mode switches `LOW` and `HIGH` (R95, R96). -/

namespace Sys2Proof.Machine

/-- An outcome has at most one next state. -/
theorem next_unique {o : Host.Outcome State Fault Refusal} {t u : State} (ht : o = .next t) (hu : o = .next u) :
    t = u := Host.Outcome.next.inj (ht.symm.trans hu)

/-- A further update of pieces among `parts` leaves a straight-line state straight-line. -/
theorem Straight.andThen {parts parts' : List Part} {s t u : State} (hst : Straight parts s t)
    (htu : Unchanged parts' t u) (hsub : parts' ⊆ parts) (hpc : u.pc = t.pc) : Straight parts s u :=
  hst.trans_unchanged hpc (htu.mono hsub)

theorem inRegion_iff (hires : Bool) (r c : Nat) :
    inRegion hires r c = true ↔ r < (if hires then 64 else 32) ∧ c < (if hires then 128 else 64) := by
  rw [inRegion, Bool.and_eq_true, decide_eq_true_eq, decide_eq_true_eq]; rfl

theorem exec_scd (n : Fin 16) (s : State) : exec (.scd n) s =
    .next (s.advance.setScreen (s.screen.mapRegion s.hires fun r c =>
      if n.val ≤ r then s.screen.cell (r - n.val) c else false)) := rfl

theorem exec_scr (s : State) : exec .scr s =
    .next (s.advance.setScreen (s.screen.mapRegion s.hires fun r c =>
      if 4 ≤ c then s.screen.cell r (c - 4) else false)) := rfl

theorem exec_scl (s : State) : exec .scl s =
    .next (s.advance.setScreen (s.screen.mapRegion s.hires fun r c =>
      if c + 4 ≤ screenWidth s.hires - 1 then s.screen.cell r (c + 4) else false)) := rfl

/-- What every scroll does to a cell, inside the logical region and outside it (R90). -/
theorem State.scroll_cells (s : State) (f : Nat → Nat → Bool) :
    (∀ r c, r < (if s.hires then 64 else 32) → c < (if s.hires then 128 else 64) →
      (s.advance.setScreen (s.screen.mapRegion s.hires f)).screen.cell r c = f r c) ∧
    (∀ r c, ¬(r < (if s.hires then 64 else 32) ∧ c < (if s.hires then 128 else 64)) →
      (s.advance.setScreen (s.screen.mapRegion s.hires f)).screen.cell r c = s.screen.cell r c) := by
  simp only [State.setScreen_screen, Screen.cell_mapRegion]
  refine ⟨fun r c hr hc => ?inside, fun r c hout => ?outside⟩
  case inside => rw [if_pos ((inRegion_iff ..).2 ⟨hr, hc⟩)]
  case outside => rw [if_neg (hout ∘ (inRegion_iff ..).1)]

/-- Settles O14: `SCD` is a scroll whose new cell is the stated one. -/
theorem scdShiftsRowsDown : Obligations.ScdShiftsRowsDown := by
  intro n s
  obtain ⟨hin, hout⟩ := s.scroll_cells fun r c => if n.val ≤ r then s.screen.cell (r - n.val) c else false
  exact ⟨_, exec_scd n s, hin, hout, s.straight_advance_setScreen _⟩

/-- The last column that `SCL` fills from is the last of the region. -/
theorem le_screenWidth_sub_one (hires : Bool) (c : Nat) :
    c + 4 ≤ screenWidth hires - 1 ↔ c + 4 < if hires then 128 else 64 := by
  cases hires <;> simp [screenWidth] <;> omega

/-- Settles O15: both are scrolls; the bound of `SCL` on its source column is the region's width. -/
theorem scrSclShiftColumns : Obligations.ScrSclShiftColumns := by
  intro s
  refine ⟨?right, ?left⟩
  case right =>
    obtain ⟨hin, hout⟩ := s.scroll_cells fun r c => if 4 ≤ c then s.screen.cell r (c - 4) else false
    exact ⟨_, exec_scr s, hin, hout, s.straight_advance_setScreen _⟩
  case left =>
    obtain ⟨hin, hout⟩ := s.scroll_cells fun r c =>
      if c + 4 ≤ screenWidth s.hires - 1 then s.screen.cell r (c + 4) else false
    refine ⟨_, exec_scl s, fun r c hr hc => ?_, hout, s.straight_advance_setScreen _⟩
    exact (hin r c hr hc).trans (if_congr (le_screenWidth_sub_one ..) rfl rfl)

theorem State.unchanged_setHires (s : State) (b : Bool) : Unchanged [.hires] s (s.setHires b) := by
  intro p hp
  cases p with
  | hires => exact absurd (List.mem_singleton_self Part.hires) hp
  | _ => simp [Part.same]

theorem State.straight_advance_setHires (s : State) (b : Bool) : Straight [.hires] s (s.advance.setHires b) :=
  (s.straight_advance [.hires]).trans_unchanged rfl (s.advance.unchanged_setHires b)

theorem exec_low (s : State) : exec .low s = .next (s.advance.setHires false) := rfl

theorem exec_high (s : State) : exec .high s = .next (s.advance.setHires true) := rfl

/-- Settles O16: each replaces the mode after the advance, and the screen is no part of the mode. -/
theorem lowHighSwitchOnlyMode : Obligations.LowHighSwitchOnlyMode :=
  fun s => ⟨⟨_, exec_low s, rfl, s.straight_advance_setHires false⟩,
    ⟨_, exec_high s, rfl, s.straight_advance_setHires true⟩⟩

end Sys2Proof.Machine
end

section
/-! PROOF. Calls and returns (R101, R103), and the jump with an offset (R109). -/

namespace Sys2Proof.Machine

theorem State.unchanged_setStack (s : State) (st : Vector Word 16) : Unchanged [.stack] s (s.setStack st) := by
  intro p hp
  cases p with
  | stack => exact absurd (List.mem_singleton_self Part.stack) hp
  | _ => simp [Part.same]

theorem State.unchanged_setSp (s : State) (n : Fin 17) : Unchanged [.stack] s (s.setSp n) := by
  intro p hp
  cases p with
  | stack => exact absurd (List.mem_singleton_self Part.stack) hp
  | _ => simp [Part.same]

theorem State.unchanged_push (s : State) (h : s.sp.val < 16) : Unchanged [.stack] s (s.push h) :=
  (s.unchanged_setStack _).trans ((s.setStack _).unchanged_setSp _)

theorem State.unchanged_pop (s : State) (h : 0 < s.sp.val) : Unchanged [.stack] s (s.pop h) :=
  (s.unchanged_setPc _ _).trans ((s.setPc _).unchanged_setSp _)

/-- The state after a `CALL nnn` with room on the stack (R103). -/
def State.called (nnn : Imm12) (s : State) (h : s.sp.val < 16) : State := (s.advance.push h).setPc (zext16 nnn)

theorem exec_call {nnn : Imm12} {s : State} (h : s.sp.val < 16) : exec (.call nnn) s = .next (s.called nnn h) :=
  dif_pos h

theorem exec_ret {s : State} (h : 0 < s.sp.val) : exec .ret s = .next (s.pop h) := dif_pos h

theorem State.unchanged_called (nnn : Imm12) (s : State) (h : s.sp.val < 16) :
    Unchanged [.stack] s (s.called nnn h) :=
  ((s.unchanged_setPc _ _).trans (s.advance.unchanged_push h)).trans (State.unchanged_setPc _ _ _)

theorem State.called_stack (nnn : Imm12) (s : State) (h : s.sp.val < 16) (k : Fin 16) :
    (s.called nnn h).stack[k.val] = if k.val = s.sp.val then s.pc + 2 else s.stack[k.val] := by
  have hset : (s.called nnn h).stack = s.stack.set s.sp.val (s.pc + 2) := rfl
  rw [hset, Vector.getElem_set]
  exact if_congr eq_comm rfl rfl

/-- Settles O19: with room the call is a push after the advance and a jump; without, it faults. -/
theorem callPushesReturnAddress : Obligations.CallPushesReturnAddress := by
  intro nnn s
  refine ⟨fun h => ?room, fun h => ?full⟩
  case room =>
    exact ⟨_, exec_call h, zext16_toNat nnn, rfl, s.called_stack nnn h, s.unchanged_called nnn h⟩
  case full => exact dif_neg (by omega)

/-- Settles O20: with a call held the return is a pop; without, it faults. -/
theorem retPopsReturnAddress : Obligations.RetPopsReturnAddress := by
  intro s
  refine ⟨fun k hk => ?held, fun h => ?empty⟩
  case held =>
    have hpos : 0 < s.sp.val := by omega
    have hsub : s.sp.val - 1 = k.val := by omega
    refine ⟨_, exec_ret hpos, ?_, hsub, rfl, s.unchanged_pop hpos⟩
    rw [State.pop_eq, State.setSp_pc, State.setPc_pc]
    simp only [hsub]
  case empty => exact dif_neg (by omega)

/-- Settles O21: the entry the return reads is the one the call wrote, and neither touches another. -/
theorem callThenRetRoundTrip : Obligations.CallThenRetRoundTrip := by
  intro nnn s h
  have hpos : 0 < (s.called nnn h).sp.val := Nat.succ_pos _
  refine ⟨_, _, exec_call h, exec_ret hpos, ?pc, rfl, fun k hk => ?entry, ?frame⟩
  case pc => exact (s.called_stack nnn h ⟨s.sp.val, h⟩).trans (if_pos rfl)
  case entry => exact (s.called_stack nnn h k).trans (if_neg hk)
  case frame => exact (s.unchanged_called nnn h).trans (State.unchanged_pop _ hpos)

theorem exec_jpV0 (nnn : Imm12) (s : State) :
    exec (.jpV0 nnn) s = .next (s.setPc (zext16 nnn + byteToWord (s.jumpOffset nnn))) := rfl

/-- Address and offset together stay below 65536, so their sum as words is their sum (R109). -/
theorem zext16_add_byteToWord_toNat (nnn : Imm12) (b : Byte) :
    (zext16 nnn + byteToWord b).toNat = nnn.toNat + b.toNat := by
  have := nnn.isLt
  have := b.isLt
  rw [BitVec.toNat_add, zext16_toNat, byteToWord, BitVec.toNat_setWidth_of_le (by decide)]
  omega

/-- Settles O23: the register the quirk selects is the one named by the top nibble of `nnn`. -/
theorem jpV0AddsOffset : Obligations.JpV0AddsOffset := by
  intro nnn x s hx
  refine ⟨_, exec_jpV0 nnn s, ?_, s.unchanged_setPc [] _⟩
  have hmod : nnn.toNat / 256 % 16 = x.val := by omega
  have hnib : (⟨nnn.toNat / 256 % 16, Nat.mod_lt _ (by decide)⟩ : RegIx) = x := Fin.ext hmod
  rw [State.setPc_pc, zext16_add_byteToWord_toNat, State.jumpOffset, hnib]

end Sys2Proof.Machine
end

section
/-! PROOF. Arithmetic, logic, shifts and random: the result first, the flag last (R114, R118 to R127). -/

namespace Sys2Proof.Machine

theorem WritesReg.regsKept {x : RegIx} {r : Byte} {s t : State} (h : WritesReg x r s t) : RegsKept [x] s t := h.2.1

theorem WritesReg.unchanged {x : RegIx} {r : Byte} {s t : State} (h : WritesReg x r s t) : Unchanged [.regs] s t :=
  h.2.2.2

theorem WritesResultAndFlag.unchanged {x : RegIx} {r f : Nat} {s t : State} (h : WritesResultAndFlag x r f s t) :
    Unchanged [.regs] s t := h.2.2.2.2

theorem State.getV_setResultFlag (s : State) (x k : RegIx) (r f : Byte) :
    (s.setResultFlag x r f).getV k = if k = 15 then f else if k = x then r else s.getV k := by
  rw [State.setResultFlag, State.setFlag_eq, State.getV_setV, State.getV_setV]
  rfl

theorem State.unchanged_setResultFlag (s : State) (x : RegIx) (r f : Byte) :
    Unchanged [.regs] s (s.setResultFlag x r f) :=
  (s.unchanged_setV x r).trans ((s.setV x r).unchanged_setV flagReg f)

/-- A result and a flag written after the advance: the flag wins where both go to `VF` (R114). -/
theorem State.writesResultAndFlag_advance (s : State) (x : RegIx) {result flag : Byte} {r f : Nat}
    (hr : result.toNat = r) (hf : flag.toNat = f) :
    WritesResultAndFlag x r f s (s.advance.setResultFlag x result flag) := by
  refine ⟨?flag, fun hx => ?result, fun k hk => ?others, ?frame⟩
  case flag => rw [State.getV_setResultFlag, if_pos rfl, hf]
  case result => rw [State.getV_setResultFlag, if_neg hx, if_pos rfl, hr]
  case others =>
    have hkx : k ≠ x := fun h => hk (by simp [h])
    have hkf : k ≠ 15 := fun h => hk (by simp [h])
    rw [State.getV_setResultFlag, if_neg hkf, if_neg hkx, State.advance_eq, State.getV_setPc]
  case frame =>
    exact (s.straight_advance [.regs]).trans_unchanged rfl (s.advance.unchanged_setResultFlag x result flag)

theorem exec_orVxVy (x y : RegIx) (s : State) :
    exec (.orVxVy x y) s = .next (s.advance.setLogicResult x (s.getV x ||| s.getV y)) := rfl

theorem exec_andVxVy (x y : RegIx) (s : State) :
    exec (.andVxVy x y) s = .next (s.advance.setLogicResult x (s.getV x &&& s.getV y)) := rfl

theorem exec_xorVxVy (x y : RegIx) (s : State) :
    exec (.xorVxVy x y) s = .next (s.advance.setLogicResult x (s.getV x ^^^ s.getV y)) := rfl

theorem exec_addVxVy (x y : RegIx) (s : State) : exec (.addVxVy x y) s =
    .next (s.advance.setResultFlag x (s.getV x + s.getV y) (carryFlag (s.getV x) (s.getV y))) := rfl

theorem exec_subVxVy (x y : RegIx) (s : State) : exec (.subVxVy x y) s =
    .next (s.advance.setResultFlag x (s.getV x - s.getV y) (noBorrowFlag (s.getV x) (s.getV y))) := rfl

theorem exec_subnVxVy (x y : RegIx) (s : State) : exec (.subnVxVy x y) s =
    .next (s.advance.setResultFlag x (s.getV y - s.getV x) (noBorrowFlag (s.getV y) (s.getV x))) := rfl

theorem exec_shrVxVy (x y : RegIx) (s : State) : exec (.shrVxVy x y) s =
    .next (s.advance.setResultFlag x (s.shiftSource x y >>> 1) (shiftRightFlag (s.shiftSource x y))) := rfl

theorem exec_shlVxVy (x y : RegIx) (s : State) : exec (.shlVxVy x y) s =
    .next (s.advance.setResultFlag x (s.shiftSource x y <<< 1) (shiftLeftFlag (s.shiftSource x y))) := rfl

/-- What a logic operation does to the state, by its quirk (R118 to R120). -/
theorem State.logicResult_spec (s : State) (x : RegIx) (r : Byte) :
    (s.quirks.logic = true → WritesResultAndFlag x r.toNat 0 s (s.advance.setLogicResult x r)) ∧
    (s.quirks.logic = false → WritesReg x r s (s.advance.setLogicResult x r)) := by
  refine ⟨fun hq => ?on, fun hq => ?off⟩
  case on =>
    have ht : s.advance.setLogicResult x r = s.advance.setResultFlag x r 0 := if_pos hq
    exact ht ▸ s.writesResultAndFlag_advance x rfl rfl
  case off =>
    have ht : s.advance.setLogicResult x r = s.advance.setV x r := if_neg (ne_true_of_eq_false hq)
    exact ht ▸ s.writesReg_advance_setV x r

/-- Settles O25: the three differ in the operation alone. -/
theorem logicResultAndFlag : Obligations.LogicResultAndFlag := by
  rintro x y s i r (⟨rfl, rfl⟩ | ⟨rfl, rfl⟩ | ⟨rfl, rfl⟩)
  · exact ⟨_, exec_orVxVy x y s, s.logicResult_spec x _⟩
  · exact ⟨_, exec_andVxVy x y s, s.logicResult_spec x _⟩
  · exact ⟨_, exec_xorVxVy x y s, s.logicResult_spec x _⟩

theorem flagOf_toNat (b : Bool) : (flagOf b).toNat = if b then 1 else 0 := by cases b <;> rfl

theorem carryFlag_toNat (a b : Byte) : (carryFlag a b).toNat = if a.toNat + b.toNat > 255 then 1 else 0 := by
  rw [carryFlag, flagOf_toNat]; simp only [decide_eq_true_eq]

theorem noBorrowFlag_toNat (a b : Byte) : (noBorrowFlag a b).toNat = if a.toNat ≥ b.toNat then 1 else 0 := by
  rw [noBorrowFlag, flagOf_toNat]; simp only [decide_eq_true_eq, ge_iff_le]

/-- Byte subtraction wraps modulo 256 (R127). -/
theorem sub_toNat (a b : Byte) :
    (a - b).toNat = if a.toNat ≥ b.toNat then a.toNat - b.toNat else a.toNat + 256 - b.toNat := by
  have := a.isLt
  have := b.isLt
  rw [BitVec.toNat_sub]
  split <;> omega

/-- Settles O26: the results and the flags of the bytes, read as numbers. -/
theorem addSubResultAndFlag : Obligations.AddSubResultAndFlag := by
  rintro x y s _ _ rfl rfl
  refine ⟨?add, ?sub, ?subn⟩
  case add =>
    exact ⟨_, exec_addVxVy x y s, s.writesResultAndFlag_advance x (BitVec.toNat_add ..) (carryFlag_toNat ..)⟩
  case sub =>
    exact ⟨_, exec_subVxVy x y s, s.writesResultAndFlag_advance x (sub_toNat ..) (noBorrowFlag_toNat ..)⟩
  case subn =>
    exact ⟨_, exec_subnVxVy x y s, s.writesResultAndFlag_advance x (sub_toNat ..) (noBorrowFlag_toNat ..)⟩

theorem shiftRight_toNat (t : Byte) : (t >>> 1).toNat = t.toNat / 2 := by
  rw [BitVec.toNat_ushiftRight, Nat.shiftRight_eq_div_pow]

theorem shiftLeft_toNat (t : Byte) : (t <<< 1).toNat = t.toNat * 2 % 256 := by
  rw [BitVec.toNat_shiftLeft, Nat.shiftLeft_eq]

theorem shiftRightFlag_toNat (t : Byte) : (shiftRightFlag t).toNat = t.toNat % 2 := by
  rw [shiftRightFlag, flagOf_toNat, BitVec.getLsbD, Nat.testBit_zero]
  split <;> simp_all

theorem shiftLeftFlag_toNat (t : Byte) : (shiftLeftFlag t).toNat = t.toNat / 128 := by
  have := t.isLt
  rw [shiftLeftFlag, flagOf_toNat, BitVec.getLsbD, Nat.testBit_eq_decide_div_mod_eq]
  split <;> simp_all <;> omega

/-- Settles O27: both shifts read the register the quirk selects. -/
theorem shiftResultAndFlag : Obligations.ShiftResultAndFlag := by
  rintro x y s _ rfl
  exact ⟨⟨_, exec_shrVxVy x y s, s.writesResultAndFlag_advance x (shiftRight_toNat _) (shiftRightFlag_toNat _)⟩,
    ⟨_, exec_shlVxVy x y s, s.writesResultAndFlag_advance x (shiftLeft_toNat _) (shiftLeftFlag_toNat _)⟩⟩

theorem State.unchanged_setDraws (s : State) (n : Nat) : Unchanged [.draws] s (s.setDraws n) := by
  intro p hp
  cases p with
  | draws => exact absurd (List.mem_singleton_self Part.draws) hp
  | _ => simp [Part.same]

/-- A register written and a free value counted, after the advance. -/
theorem State.straight_advance_setV_setDraws (s : State) (x : RegIx) (b : Byte) (n : Nat) :
    Straight [.regs, .draws] s ((s.advance.setV x b).setDraws n) :=
  ((s.straight_advance _).andThen (State.unchanged_setV _ x b) (by simp) rfl).andThen
    (State.unchanged_setDraws _ n) (by simp) rfl

theorem exec_rnd (x : RegIx) (nn : Byte) (s : State) : exec (.rnd x nn) s =
    .next ((s.advance.setV x (Config.freeByte s.draws &&& nn)).setDraws (s.draws + 1)) := rfl

/-- Settles O28: whatever the free byte is, it is masked, stored in one register and counted. -/
theorem rndMasksFreeByte : Obligations.RndMasksFreeByte := by
  intro x nn s
  obtain ⟨hval, hkept, -⟩ := s.writesReg_advance_setV x (Config.freeByte s.draws &&& nn)
  refine ⟨_, exec_rnd x nn s, hval, fun hzero => ?_, rfl, hkept, s.straight_advance_setV_setDraws ..⟩
  subst hzero
  exact hval.trans BitVec.and_zero

end Sys2Proof.Machine
end

section
/-! PROOF. The index register and the transfers between registers and memory (R136 to R142). -/

namespace Sys2Proof.Machine

theorem State.unchanged_setI (s : State) (w : Word) : Unchanged [.index] s (s.setI w) := by
  intro p hp
  cases p with
  | index => exact absurd (List.mem_singleton_self Part.index) hp
  | _ => simp [Part.same]

theorem State.straight_advance_setI (s : State) (w : Word) : Straight [.index] s (s.advance.setI w) :=
  (s.straight_advance [.index]).trans_unchanged rfl (s.advance.unchanged_setI w)

theorem exec_ldINnn (nnn : Imm12) (s : State) : exec (.ldINnn nnn) s = .next (s.advance.setI (zext16 nnn)) := rfl

theorem exec_addIVx (x : RegIx) (s : State) :
    exec (.addIVx x) s = .next (s.advance.setI (s.i + byteToWord (s.getV x))) := rfl

theorem exec_ldFVx (x : RegIx) (s : State) :
    exec (.ldFVx x) s = .next (s.advance.setI (glyphAddress (s.getV x))) := rfl

theorem exec_ldHfVx (x : RegIx) (s : State) :
    exec (.ldHfVx x) s = .next (s.advance.setI (bigGlyphAddress (s.getV x))) := rfl

theorem add_byteToWord_toNat (w : Word) (b : Byte) : (w + byteToWord b).toNat = (w.toNat + b.toNat) % 65536 := by
  rw [BitVec.toNat_add, byteToWord, BitVec.toNat_setWidth_of_le (by decide)]

/-- Settles O29: both replace `I` after the advance. -/
theorem indexLoadAndAdd : Obligations.IndexLoadAndAdd :=
  fun nnn x s => ⟨⟨_, exec_ldINnn nnn s, zext16_toNat nnn, s.straight_advance_setI _⟩,
    ⟨_, exec_addIVx x s, add_byteToWord_toNat s.i (s.getV x), s.straight_advance_setI _⟩⟩

/-- A glyph address is below 65536 for every byte, so it is not reduced. -/
theorem glyphAddress_toNat (b : Byte) : (glyphAddress b).toNat = 5 * b.toNat := by
  have := b.isLt
  simp only [glyphAddress, fontStride, BitVec.toNat_ofNat]
  omega

theorem bigGlyphAddress_toNat (b : Byte) : (bigGlyphAddress b).toNat = 0x050 + 10 * b.toNat := by
  have := b.isLt
  simp only [bigGlyphAddress, bigFontBase, bigFontStride, BitVec.toNat_ofNat]
  omega

/-- Settles O30: both replace `I` by the address of a glyph. -/
theorem glyphPointers : Obligations.GlyphPointers :=
  fun x s => ⟨⟨_, exec_ldFVx x s, glyphAddress_toNat (s.getV x), s.straight_advance_setI _⟩,
    ⟨_, exec_ldHfVx x s, bigGlyphAddress_toNat (s.getV x), s.straight_advance_setI _⟩⟩

theorem State.unchanged_store (s : State) (a : Nat) (bs : List Byte) : Unchanged [.mem] s (s.store a bs) := by
  intro p hp
  cases p with
  | mem => exact absurd (List.mem_singleton_self Part.mem) hp
  | _ => simp [Part.same]

theorem State.straight_advance_store (s : State) (a : Nat) (bs : List Byte) :
    Straight [.mem] s (s.advance.store a bs) :=
  (s.straight_advance [.mem]).trans_unchanged rfl (s.advance.unchanged_store a bs)

/-- Byte `k` of what was stored. -/
theorem State.byteAt_store_add (s : State) (a k : Nat) (bs : List Byte) (hk : k < bs.length) :
    (s.store a bs).byteAt (a + k) = bs.getD k 0 := by
  rw [State.byteAt_store, if_pos (by omega), Nat.add_sub_cancel_left]

/-- A store leaves every byte outside it as it was. -/
theorem State.bytesKept_store (s : State) (a : Nat) (bs : List Byte) : BytesKept a bs.length s (s.store a bs) :=
  fun _ hout => (s.byteAt_store a bs _).trans (if_neg hout)

/-- The bounds on an access that reads or writes something (R135). -/
theorem inMemory_succ_iff (a n : Nat) : inMemory a (n + 1) = true ↔ a + n ≤ 0xFFF := by
  rw [inMemory_iff]; simp [topAddress]

theorem exec_ldBVx {x : RegIx} {s : State} (h : s.i.toNat + 2 ≤ 0xFFF) :
    exec (.ldBVx x) s = .next (s.advance.store s.i.toNat (decimalDigits (s.getV x))) :=
  if_pos ((inMemory_succ_iff ..).2 h)

theorem exec_ldBVx_past {x : RegIx} {s : State} (h : s.i.toNat + 2 > 0xFFF) :
    exec (.ldBVx x) s = .next (s.setFault (some .outOfRange)) :=
  if_neg (mt (inMemory_succ_iff ..).1 (Nat.not_le_of_gt h))

theorem exec_ldMemVx {x : RegIx} {s : State} (h : s.i.toNat + x.val ≤ 0xFFF) :
    exec (.ldMemVx x) s = .next ((s.advance.store s.i.toNat (s.regsUpTo x)).setI (s.bulkIndex x)) :=
  if_pos ((inMemory_succ_iff ..).2 h)

theorem exec_ldMemVx_past {x : RegIx} {s : State} (h : s.i.toNat + x.val > 0xFFF) :
    exec (.ldMemVx x) s = .next (s.setFault (some .outOfRange)) :=
  if_neg (mt (inMemory_succ_iff ..).1 (Nat.not_le_of_gt h))

theorem exec_ldVxMem {x : RegIx} {s : State} (h : s.i.toNat + x.val ≤ 0xFFF) :
    exec (.ldVxMem x) s =
      .next ((s.advance.setRegsUpTo x fun k => s.byteAt (s.i.toNat + k.val)).setI (s.bulkIndex x)) :=
  if_pos ((inMemory_succ_iff ..).2 h)

theorem exec_ldVxMem_past {x : RegIx} {s : State} (h : s.i.toNat + x.val > 0xFFF) :
    exec (.ldVxMem x) s = .next (s.setFault (some .outOfRange)) :=
  if_neg (mt (inMemory_succ_iff ..).1 (Nat.not_le_of_gt h))

/-- The decimal digits of a byte are the bytes of its three digits: none is reduced. -/
theorem decimalDigits_toNat (b : Byte) :
    ((decimalDigits b).getD 0 0).toNat = b.toNat / 100 ∧ ((decimalDigits b).getD 1 0).toNat = b.toNat / 10 % 10 ∧
      ((decimalDigits b).getD 2 0).toNat = b.toNat % 10 := by
  have := b.isLt
  simp only [decimalDigits, List.getD_cons_zero, List.getD_cons_succ, BitVec.toNat_ofNat]
  omega

/-- Settles O31: the store puts the three digits at `I` upward. -/
theorem bcdStoresDigits : Obligations.BcdStoresDigits := by
  intro x s
  refine ⟨fun h => ?inside, exec_ldBVx_past⟩
  case inside =>
    obtain ⟨hundreds, tens, ones⟩ := decimalDigits_toNat (s.getV x)
    have hbyte : ∀ k, k < 3 → (s.advance.store s.i.toNat (decimalDigits (s.getV x))).byteAt (s.i.toNat + k) =
        (decimalDigits (s.getV x)).getD k 0 := fun k hk => s.advance.byteAt_store_add _ k _ hk
    refine ⟨_, exec_ldBVx h, ?_, ?_, ?_, ?kept, s.straight_advance_store _ _⟩
    · exact (congrArg BitVec.toNat (hbyte 0 (by decide))).trans hundreds
    · exact (congrArg BitVec.toNat (hbyte 1 (by decide))).trans tens
    · exact (congrArg BitVec.toNat (hbyte 2 (by decide))).trans ones
    case kept => exact s.advance.bytesKept_store s.i.toNat (decimalDigits (s.getV x))

/-- `I` after a bulk transfer, as a number (R141, R142). -/
theorem State.bulkIndex_toNat (s : State) (x : RegIx) :
    (s.bulkIndex x).toNat = if s.quirks.loadstore then s.i.toNat else (s.i.toNat + x.val + 1) % 65536 := by
  unfold State.bulkIndex
  split
  · rfl
  · rw [BitVec.toNat_add, BitVec.toNat_ofNat]; omega

/-- The registers of a bulk store, read back where they were stored. -/
theorem State.byteAt_store_regsUpTo (s t : State) (x k : RegIx) (a : Nat) (hk : k ≤ x) :
    (t.store a (s.regsUpTo x)).byteAt (a + k.val) = s.getV k := by
  have hlt : k.val < (s.regsUpTo x).length := by
    rw [State.regsUpTo_length]; exact Nat.lt_succ_of_le (Fin.le_def.1 hk)
  rw [State.byteAt_store_add _ _ _ _ hlt, State.regsUpTo_getD s x k hk]

/-- Settles O32: the store of the registers, then the update of `I`. -/
theorem bulkStoreWritesRegisters : Obligations.BulkStoreWritesRegisters := by
  intro x s
  refine ⟨fun h => ?inside, exec_ldMemVx_past⟩
  case inside =>
    refine ⟨_, exec_ldMemVx h, fun k hk => s.byteAt_store_regsUpTo s.advance x k _ hk, ?kept, s.bulkIndex_toNat x,
      ?frame⟩
    case kept => exact s.regsUpTo_length x ▸ s.advance.bytesKept_store s.i.toNat (s.regsUpTo x)
    case frame =>
      exact ((s.straight_advance _).andThen (State.unchanged_store _ _ _) (by simp) rfl).andThen
        (State.unchanged_setI _ _) (by simp) rfl

theorem State.getV_advance_setRegsUpTo_setI (s : State) (x k : RegIx) (g : RegIx → Byte) (w : Word) :
    ((s.advance.setRegsUpTo x g).setI w).getV k = if k ≤ x then g k else s.getV k := by
  rw [State.getV_setI, State.getV_setRegsUpTo, State.advance_eq, State.getV_setPc]

/-- Settles O33: the load of the registers, then the update of `I`. -/
theorem bulkLoadReadsMemory : Obligations.BulkLoadReadsMemory := by
  intro x s
  refine ⟨fun h => ?inside, exec_ldVxMem_past⟩
  case inside =>
    refine ⟨_, exec_ldVxMem h, fun k => s.getV_advance_setRegsUpTo_setI .., s.bulkIndex_toNat x, ?frame⟩
    case frame =>
      exact ((s.straight_advance _).andThen (State.unchanged_setRegsUpTo _ x _) (by simp) rfl).andThen
        (State.unchanged_setI _ _) (by simp) rfl

/-- Settles O34: the bytes loaded are those stored, at the same addresses. -/
theorem bulkStoreThenLoadRestores : Obligations.BulkStoreThenLoadRestores := by
  intro x s w h
  refine ⟨_, _, exec_ldMemVx h, exec_ldVxMem h, fun k => ?_⟩
  rw [State.getV_advance_setRegsUpTo_setI]
  split_ifs with hk
  · exact s.byteAt_store_regsUpTo s.advance x k s.i.toNat hk
  · rfl

end Sys2Proof.Machine
end

section
/-! PROOF. The key skips (R161, R162) and the wait for a key (R164). -/

namespace Sys2Proof.Machine

theorem exec_skp {x : RegIx} {s : State} (h : (s.getV x).toNat < 16) :
    exec (.skp x) s = .next (s.advance.skipIf s.keys[(s.getV x).toNat]) := dif_pos h

theorem exec_sknp {x : RegIx} {s : State} (h : (s.getV x).toNat < 16) :
    exec (.sknp x) s = .next (s.advance.skipIf (!s.keys[(s.getV x).toNat])) := dif_pos h

theorem exec_skp_past {x : RegIx} {s : State} (h : (s.getV x).toNat > 15) :
    exec (.skp x) s = .next (s.setFault (some .outOfRange)) := dif_neg (by omega)

theorem exec_sknp_past {x : RegIx} {s : State} (h : (s.getV x).toNat > 15) :
    exec (.sknp x) s = .next (s.setFault (some .outOfRange)) := dif_neg (by omega)

/-- Settles O42: both are conditional skips on one key, which exists below 16. -/
theorem keySkips : Obligations.KeySkips := by
  intro x s
  refine ⟨fun k hk => ?inside, fun h => ⟨exec_skp_past h, exec_sknp_past h⟩⟩
  case inside =>
    have hlt : (s.getV x).toNat < 16 := by omega
    have hkey : s.keys[(s.getV x).toNat] = s.keys[k.val] := by simp only [hk]
    refine ⟨⟨_, exec_skp hlt, s.advance_skipIf_spec (by rw [hkey])⟩, ⟨_, exec_sknp hlt, ?_⟩⟩
    rw [hkey, s.advance_skipIf]
    refine ⟨?_, s.unchanged_setPc [] _⟩
    cases s.keys[k.val] <;> rfl

/-- `LD Vx,K` with no key down stays where it is: the advance is taken back. -/
theorem State.advance_rewind (s : State) : s.advance.rewind = s := by
  have hpc : s.pc + 2 - 2 = s.pc := BitVec.add_sub_cancel s.pc 2
  exact congrArg s.setPc hpc

/-- Everything `LD Vx,K` can do: wait, or take some pressed key. -/
theorem exec_ldVxK_cases (x : RegIx) (s : State) :
    (s.pressedKeys = [] ∧ exec (.ldVxK x) s = .next s) ∨
    (∃ key ∈ s.pressedKeys, exec (.ldVxK x) s =
      .next ((s.advance.setV x (BitVec.ofNat 8 key.val)).setDraws (s.draws + 1))) := by
  cases hkeys : s.pressedKeys with
  | nil =>
    have hexec : exec (.ldVxK x) s = .next s.advance.rewind := by simp only [exec, execLdVxK, hkeys]
    exact .inl ⟨rfl, hexec.trans (congrArg _ s.advance_rewind)⟩
  | cons k rest =>
    have hlt : Config.freeChoice s.draws % (rest.length + 1) < (k :: rest).length := Nat.mod_lt _ (Nat.succ_pos _)
    refine .inr ⟨(k :: rest).getD (Config.freeChoice s.draws % (rest.length + 1)) k, ?_, ?_⟩
    · rw [List.getD_eq_getElem _ _ hlt]; exact List.getElem_mem hlt
    · simp only [exec, execLdVxK, hkeys]

/-- Settles O43: whichever pressed key is taken, its number fits in a byte. -/
theorem keyWaitCapturesPressedKey : Obligations.KeyWaitCapturesPressedKey := by
  intro x s
  rcases exec_ldVxK_cases x s with ⟨hkeys, hexec⟩ | ⟨key, hmem, hexec⟩
  case inl =>
    refine ⟨fun ⟨k, hk⟩ => ?_, fun _ => hexec⟩
    exact absurd (hkeys ▸ (s.mem_pressedKeys k).2 hk) List.not_mem_nil
  case inr =>
    have hdown := (s.mem_pressedKeys key).1 hmem
    refine ⟨fun _ => ?_, fun hnone => absurd (hnone key) (ne_false_of_eq_true hdown)⟩
    obtain ⟨hval, hkept, -⟩ := s.writesReg_advance_setV x (BitVec.ofNat 8 key.val)
    refine ⟨_, hexec, ⟨key, hdown, ?_⟩, hkept, s.straight_advance_setV_setDraws ..⟩
    exact (congrArg BitVec.toNat hval).trans (Nat.mod_eq_of_lt (by omega))

end Sys2Proof.Machine
end

section
/-! PROOF. The draw: its range check, the cells its pixels land on, and drawing twice (R150 to R156). -/

namespace Sys2Proof.Machine

/-- The range check of a draw is the negation of the stated condition (R150, R172). -/
theorem inMemory_sprite_iff (x y : RegIx) (n : Fin 16) (s : State) :
    inMemory s.i.toNat (spriteBytes s.hires n) = true ↔ ¬(Instr.drw x y n).outOfRange s := by
  rw [inMemory_iff]
  simp only [spriteBytes, spriteShape, Instr.outOfRange, topAddress, Bool.and_eq_true, decide_eq_true_eq]
  split
  · simp
  · simp only [Nat.mul_one]; omega

/-- The state after a draw with all its bytes in memory (R150). -/
def State.drawn (x y : RegIx) (n : Fin 16) (s : State) : State :=
  ((s.advance.setScreen (plotCells s.screen (s.spriteHits x y n)).1).setFlag
    (flagOf (plotCells s.screen (s.spriteHits x y n)).2)).setLatch (s.vblankWait || s.quirks.vblank)

theorem exec_drw {x y : RegIx} {n : Fin 16} {s : State} (h : ¬(Instr.drw x y n).outOfRange s) :
    exec (.drw x y n) s = .next (s.drawn x y n) := if_pos ((inMemory_sprite_iff x y n s).2 h)

theorem exec_drw_past {x y : RegIx} {n : Fin 16} {s : State} (h : (Instr.drw x y n).outOfRange s) :
    exec (.drw x y n) s = .next (s.setFault (some .outOfRange)) :=
  if_neg fun hin => (inMemory_sprite_iff x y n s).1 hin h

theorem State.straight_drawn (x y : RegIx) (n : Fin 16) (s : State) :
    Straight [.screen, .regs, .latch] s (s.drawn x y n) := by
  rw [State.drawn, State.setFlag_eq]
  refine .andThen ?_ (State.unchanged_setLatch _ _) (by simp) rfl
  refine .andThen ?_ (State.unchanged_setV _ flagReg _) (by simp) rfl
  exact (s.straight_advance _).andThen (State.unchanged_setScreen _ _) (by simp) rfl

theorem State.getV_drawn (x y k : RegIx) (n : Fin 16) (s : State) : (s.drawn x y n).getV k =
    if k = 15 then flagOf (plotCells s.screen (s.spriteHits x y n)).2 else s.getV k := by
  rw [State.drawn, State.getV_setLatch, State.setFlag_eq, State.getV_setV]
  rfl

theorem flagOf_eq_one (b : Bool) : flagOf b = 1 ↔ b = true := by cases b <;> decide

/-- `VF` after a draw says whether a cell it toggled was lit (R154). -/
theorem State.flag_drawn (x y : RegIx) (n : Fin 16) (s : State) : (s.drawn x y n).getV 15 = 1 ↔
    ∃ r c, (r, c) ∈ s.spriteHits x y n ∧ s.screen.cell r c = true := by
  rw [State.getV_drawn, if_pos rfl, flagOf_eq_one]
  exact (plot_spriteHits s x y n).2

/-- A draw toggles the cells it hits and no other (R154). -/
theorem State.cell_drawn (x y : RegIx) (n : Fin 16) (s : State) (r c : Nat) : (s.drawn x y n).screen.cell r c =
    if (r, c) ∈ s.spriteHits x y n then !s.screen.cell r c else s.screen.cell r c :=
  (plot_spriteHits s x y n).1 r c

/-- Settles O37: the range check decides between the draw and the fault. -/
theorem drwCompletesAndFrame : Obligations.DrwCompletesAndFrame := by
  intro x y n s
  refine ⟨fun h => ⟨_, exec_drw h, ?flag, ?regs, ?latch, fun hlow hn => ?noRows, s.straight_drawn x y n⟩,
    exec_drw_past⟩
  case flag =>
    rw [State.getV_drawn, if_pos rfl]
    cases (plotCells s.screen (s.spriteHits x y n)).2
    · exact .inl rfl
    · exact .inr rfl
  case regs =>
    intro k hk
    rw [State.getV_drawn, if_neg (by simpa using hk)]
  case latch =>
    have hlatch : (s.drawn x y n).vblankWait = (s.vblankWait || s.quirks.vblank) := rfl
    rw [hlatch]
    cases s.quirks.vblank <;> simp
  case noRows =>
    have hempty : s.spriteHits x y n = [] := by simp [State.spriteHits, spriteShape, hlow, hn]
    refine ⟨?_, fun r c => ?_⟩
    · rw [State.getV_drawn, if_pos rfl, hempty]; rfl
    · rw [State.cell_drawn, hempty, if_neg List.not_mem_nil]

/-- A sprite pixel lands on a cell, in the words of the rules and in those of the model (R151 to R153). -/
theorem spriteLands_iff (s : State) (x y : RegIx) (n : Fin 16) (p q r c : Nat) : s.spriteLands x y n p q r c ↔
    p < (spriteShape s.hires n).rows ∧ q < (spriteShape s.hires n).cols ∧ s.spriteHit x y n p q = some (r, c) := by
  rw [spriteHit_eq_some, targetCell_eq_some]
  simp only [State.spriteLands, State.spritePixel, spriteShape, screenWidth, screenHeight, Bool.and_eq_true,
    decide_eq_true_eq, Prod.mk.injEq]
  split <;> simp only [and_assoc]

/-- The cells some pixel lands on are the cells the draw hits. -/
theorem exists_spriteLands_iff (s : State) (x y : RegIx) (n : Fin 16) (r c : Nat) :
    (∃ p q, s.spriteLands x y n p q r c) ↔ (r, c) ∈ s.spriteHits x y n := by
  simp only [spriteLands_iff, mem_spriteHits]

/-- Settles O38: a draw toggles each cell it hits once, and hits are where pixels land. -/
theorem drwTogglesWherePixelsLand : Obligations.DrwTogglesWherePixelsLand := by
  intro x y n s t h hexec
  obtain rfl : s.drawn x y n = t := next_unique (exec_drw h) hexec
  refine ⟨fun r c => ?cells, ?flag⟩
  case cells =>
    rw [exists_spriteLands_iff, State.cell_drawn]
    exact ⟨fun hin => if_pos hin, fun hout => if_neg hout⟩
  case flag =>
    rw [State.flag_drawn]
    simp only [← exists_spriteLands_iff]
    constructor
    · rintro ⟨r, c, ⟨p, q, hlands⟩, hlit⟩; exact ⟨p, q, r, c, hlands, hlit⟩
    · rintro ⟨p, q, r, c, hlands, hlit⟩; exact ⟨r, c, ⟨p, q, hlands⟩, hlit⟩

/-- A draw with coordinates outside `VF` changes nothing that the next draw's hits depend on. -/
theorem State.spriteHits_drawn {x y : RegIx} {n : Fin 16} {s : State} (hx : x ≠ 15) (hy : y ≠ 15) :
    (s.drawn x y n).spriteHits x y n = s.spriteHits x y n := by
  have hxv : (s.drawn x y n).getV x = s.getV x := by rw [State.getV_drawn, if_neg hx]
  have hyv : (s.drawn x y n).getV y = s.getV y := by rw [State.getV_drawn, if_neg hy]
  have hhit : (s.drawn x y n).spriteHit x y n = s.spriteHit x y n := by
    funext p q
    unfold State.spriteHit
    rw [hxv, hyv]
    rfl
  unfold State.spriteHits
  rw [hhit]
  rfl

/-- Settles O39: both draws hit the same cells, so the second toggles back what the first toggled. -/
theorem drwTwiceRestoresScreen : Obligations.DrwTwiceRestoresScreen := by
  intro x y n s hx hy h
  have hagain : ¬(Instr.drw x y n).outOfRange (s.drawn x y n) := h
  refine ⟨_, _, exec_drw h, exec_drw hagain, fun r c => ?screen, ?flag⟩
  case screen =>
    rw [State.cell_drawn, State.spriteHits_drawn hx hy, State.cell_drawn]
    split_ifs
    · exact Bool.not_not _
    · rfl
  case flag =>
    rw [State.flag_drawn, State.spriteHits_drawn hx hy]
    refine exists_congr fun r => exists_congr fun c => ?_
    rw [State.cell_drawn]
    split_ifs with hin <;> simp [hin]

end Sys2Proof.Machine
end

section
/-! PROOF. What every instruction does: it faults under its own condition and otherwise completes within its row of the
access table (R33, R172, R173). -/

namespace Sys2Proof.Machine

theorem State.unchanged_setFault (s : State) (f : Option FaultStatus) : Unchanged [.fault] s (s.setFault f) := by
  intro p hp
  cases p with
  | fault => exact absurd (List.mem_singleton_self Part.fault) hp
  | _ => simp [Part.same]

/-- An instruction under its condition of R172 changes only the fault (R173). -/
theorem exec_of_outOfRange {i : Instr} {s : State} (h : i.outOfRange s) :
    exec i s = .next (s.setFault (some .outOfRange)) := by
  cases i with
  | ret => exact dif_neg (Nat.not_lt_of_le (Nat.le_of_eq h))
  | call nnn => exact dif_neg (Nat.not_lt_of_le (Nat.le_of_eq (Eq.symm h)))
  | drw x y n => exact exec_drw_past h
  | ldBVx x => exact exec_ldBVx_past h
  | ldMemVx x => exact exec_ldMemVx_past h
  | ldVxMem x => exact exec_ldVxMem_past h
  | skp x => exact exec_skp_past h
  | sknp x => exact exec_sknp_past h
  | _ => exact False.elim h

theorem pos_of_not_outOfRange_ret {s : State} (h : ¬Instr.ret.outOfRange s) : 0 < s.sp.val := Nat.pos_of_ne_zero h

theorem lt_of_not_outOfRange_call {nnn : Imm12} {s : State} (h : ¬(Instr.call nnn).outOfRange s) : s.sp.val < 16 := by
  have hne : s.sp.val ≠ 16 := h
  omega

theorem State.unchanged_advance_skipIf (s : State) (b : Bool) : Unchanged [] s (s.advance.skipIf b) := by
  rw [s.advance_skipIf]
  exact s.unchanged_setPc [] _

theorem State.unchanged_advance_setLogicResult (s : State) (x : RegIx) (r : Byte) :
    Unchanged [.regs] s (s.advance.setLogicResult x r) := by
  obtain ⟨hon, hoff⟩ := s.logicResult_spec x r
  cases hq : s.quirks.logic with
  | true => exact (hon hq).unchanged
  | false => exact (hoff hq).unchanged

/-- Outside its condition of R172 an instruction completes, and writes only its row of the access table (R33). -/
theorem exec_completes {i : Instr} {s : State} (h : ¬i.outOfRange s) :
    ∃ t, exec i s = .next t ∧ Unchanged i.writes s t := by
  cases i with
  | cls | scd | scr | scl => exact ⟨_, rfl, (s.straight_advance_setScreen _).2⟩
  | low | high => exact ⟨_, rfl, (s.straight_advance_setHires _).2⟩
  | sys => exact ⟨_, rfl, (s.straight_advance _).2⟩
  | jp | jpV0 => exact ⟨_, rfl, s.unchanged_setPc _ _⟩
  | ret => exact ⟨_, exec_ret (pos_of_not_outOfRange_ret h), s.unchanged_pop _⟩
  | call nnn => exact ⟨_, exec_call (lt_of_not_outOfRange_call h), s.unchanged_called nnn _⟩
  | seVxNn | sneVxNn | seVxVy | sneVxVy => exact ⟨_, rfl, s.unchanged_advance_skipIf _⟩
  | skp x => exact ⟨_, exec_skp (Nat.lt_of_not_le h), s.unchanged_advance_skipIf _⟩
  | sknp x => exact ⟨_, exec_sknp (Nat.lt_of_not_le h), s.unchanged_advance_skipIf _⟩
  | ldVxNn x | addVxNn x | ldVxVy x | ldVxDt x => exact ⟨_, rfl, (s.writesReg_advance_setV x _).unchanged⟩
  | orVxVy x | andVxVy x | xorVxVy x => exact ⟨_, rfl, s.unchanged_advance_setLogicResult x _⟩
  | addVxVy x | subVxVy x | shrVxVy x | subnVxVy x | shlVxVy x =>
    exact ⟨_, rfl, (s.writesResultAndFlag_advance x rfl rfl).unchanged⟩
  | rnd x => exact ⟨_, rfl, (s.straight_advance_setV_setDraws x _ _).2⟩
  | ldVxK x =>
    rcases exec_ldVxK_cases x s with ⟨-, hexec⟩ | ⟨key, -, hexec⟩
    · exact ⟨_, hexec, s.unchanged_setPc _ s.pc⟩
    · exact ⟨_, hexec, (s.straight_advance_setV_setDraws x _ _).2⟩
  | ldINnn | addIVx | ldFVx | ldHfVx => exact ⟨_, rfl, (s.straight_advance_setI _).2⟩
  | drw x y n => exact ⟨_, exec_drw h, (s.straight_drawn x y n).2⟩
  | ldDtVx => exact ⟨_, rfl, (s.straight_advance _).2.trans (s.advance.unchanged_setDelay _)⟩
  | ldStVx => exact ⟨_, rfl, (s.straight_advance _).2.trans (s.advance.unchanged_setSound _)⟩
  | ldBVx x => exact ⟨_, exec_ldBVx (Nat.le_of_not_lt h), (s.straight_advance_store _ _).2⟩
  | ldMemVx x =>
    obtain ⟨t, hexec, -, -, -, hframe⟩ := (bulkStoreWritesRegisters x s).1 (Nat.le_of_not_lt h)
    exact ⟨t, hexec, hframe.2⟩
  | ldVxMem x =>
    obtain ⟨t, hexec, -, -, hframe⟩ := (bulkLoadReadsMemory x s).1 (Nat.le_of_not_lt h)
    exact ⟨t, hexec, hframe.2⟩
  | ldRVx x =>
    obtain ⟨⟨t, hexec, -, hframe⟩, -⟩ := flagBankTransfers x s
    exact ⟨t, hexec, hframe.2⟩
  | ldVxR x =>
    obtain ⟨-, ⟨t, hexec, -, hframe⟩⟩ := flagBankTransfers x s
    exact ⟨t, hexec, hframe.2⟩

/-- Everything an instruction can do, from the state it leaves. -/
theorem exec_cases {i : Instr} {s t : State} (hexec : exec i s = .next t) :
    (i.outOfRange s ∧ t = s.setFault (some .outOfRange)) ∨ (¬i.outOfRange s ∧ Unchanged i.writes s t) := by
  by_cases h : i.outOfRange s
  · exact .inl ⟨h, (next_unique (exec_of_outOfRange h) hexec).symm⟩
  · obtain ⟨u, hu, hframe⟩ := exec_completes h
    exact .inr ⟨h, next_unique hu hexec ▸ hframe⟩

theorem exec_next (i : Instr) (s : State) : ∃ t, exec i s = .next t := by
  by_cases h : i.outOfRange s
  · exact ⟨_, exec_of_outOfRange h⟩
  · obtain ⟨t, hexec, -⟩ := exec_completes h
    exact ⟨t, hexec⟩

/-- Whether an instruction completes or faults, it keeps what its row does not name. -/
theorem exec_keeps {i : Instr} {s t : State} (hexec : exec i s = .next t) {p : Part} (hp : p ∉ i.writes)
    (hfault : p ≠ .fault) : p.same s t := by
  rcases exec_cases hexec with ⟨-, rfl⟩ | ⟨-, hframe⟩
  · exact s.unchanged_setFault _ p (by simpa using hfault)
  · exact hframe p hp

/-- No row of the access table names what only the host writes, or the fault. -/
theorem not_mem_writes (i : Instr) : Part.fault ∉ i.writes ∧ Part.keys ∉ i.writes ∧ Part.profile ∉ i.writes ∧
    Part.accs ∉ i.writes ∧ Part.params ∉ i.writes ∧ Part.pending ∉ i.writes := by
  cases i <;> simp [Instr.writes]

/-- Settles O57: the case of the fault is excluded. -/
theorem writersAreTheAccessTable : Obligations.WritersAreTheAccessTable := by
  intro i s t hexec h
  rcases exec_cases hexec with ⟨hout, -⟩ | ⟨-, hframe⟩
  · exact absurd hout h
  · exact hframe

/-- An instruction that changes `VF` while it keeps every register but `V[x]` has `VF` as that register. -/
theorem eq_of_regsKept {x : RegIx} {s t : State} (hkept : RegsKept [x] s t) (hvf : t.getV 15 ≠ s.getV 15) : x = 15 := by
  by_contra hne
  exact hvf (hkept 15 (by simpa using Ne.symm hne))

theorem mayWriteVf_logic {x : RegIx} {r : Byte} {s : State}
    (hvf : (s.advance.setLogicResult x r).getV 15 ≠ s.getV 15) : s.quirks.logic = true ∨ x = 15 := by
  cases hq : s.quirks.logic with
  | true => exact .inl rfl
  | false => exact .inr (eq_of_regsKept ((s.logicResult_spec x r).2 hq).regsKept hvf)

/-- Settles O60: an instruction without registers in its row keeps `VF`; each of the others is on the list or keeps
every register but its destination. -/
theorem vfWrittenOnlyAsListed : Obligations.VfWrittenOnlyAsListed := by
  intro i s t hexec hvf
  have hregs : Part.regs ∈ i.writes := by
    by_contra hp
    exact hvf (exec_keeps (p := .regs) hexec hp (by decide) 15)
  have last_reg : ∀ {x : RegIx} {b : Byte}, (if (15 : RegIx) ≤ x then b else s.getV 15) ≠ s.getV 15 → x = 15 := by
    intro x b hne
    by_contra hx
    exact hne (if_neg fun hle => hx (Fin.le_antisymm (Fin.le_last x) hle))
  cases i with
  | orVxVy | andVxVy | xorVxVy => cases hexec; exact mayWriteVf_logic hvf
  | addVxVy | subVxVy | shrVxVy | subnVxVy | shlVxVy | drw => trivial
  | ldVxNn x | addVxNn x | ldVxVy x | ldVxDt x | rnd x =>
    cases hexec
    exact eq_of_regsKept (s.writesReg_advance_setV x _).regsKept hvf
  | ldVxK x =>
    rcases exec_ldVxK_cases x s with ⟨-, hk⟩ | ⟨key, -, hk⟩
    · exact absurd (congrArg (State.getV · 15) (next_unique hexec hk)) hvf
    · obtain rfl := next_unique hk hexec
      exact eq_of_regsKept (s.writesReg_advance_setV x _).regsKept hvf
  | ldVxMem x =>
    rcases exec_cases hexec with ⟨-, rfl⟩ | ⟨h, -⟩
    · exact absurd rfl hvf
    · obtain rfl := next_unique (exec_ldVxMem (Nat.le_of_not_lt h)) hexec
      rw [State.getV_advance_setRegsUpTo_setI] at hvf
      exact last_reg hvf
  | ldVxR x =>
    obtain ⟨-, ⟨u, hu, hread, -⟩⟩ := flagBankTransfers x s
    obtain rfl := next_unique hu hexec
    rw [hread] at hvf
    exact last_reg hvf
  | _ => simp [Instr.writes] at hregs

/-- Settles O41: the scrolls and the draw stay in the logical region, and no other instruction but `CLS` has the screen
in its row. -/
theorem lowResolutionKeepsOutside : Obligations.LowResolutionKeepsOutside := by
  intro i s t r c hlow hcls hexec hout
  by_cases hscr : Part.screen ∈ i.writes
  case neg => exact exec_keeps (p := .screen) hexec hscr (by decide) r c
  have hscroll : ∀ f, (s.advance.setScreen (s.screen.mapRegion s.hires f)).screen.cell r c = s.screen.cell r c :=
    fun f => (s.scroll_cells f).2 r c (by simpa [hlow] using hout)
  cases i with
  | cls => exact absurd rfl hcls
  | scd | scr | scl => cases hexec; exact hscroll _
  | drw x y n =>
    rcases exec_cases hexec with ⟨-, rfl⟩ | ⟨h, -⟩
    · rfl
    · obtain rfl := next_unique (exec_drw h) hexec
      rw [State.cell_drawn, if_neg]
      intro hmem
      have hregion := spriteHits_region s x y n (r, c) hmem
      rw [hlow] at hregion
      exact hout hregion
  | _ => simp [Instr.writes] at hscr

end Sys2Proof.Machine
end

section
/-! PROOF. No instruction reads `sound` (R21): changing it before an instruction is changing it after. -/

namespace Sys2Proof.Machine

theorem outOfRange_setSound (i : Instr) (s : State) (b : Byte) : i.outOfRange (s.setSound b) ↔ i.outOfRange s := by
  cases i <;> rfl

theorem State.advance_skipIf_setSound (s : State) (c : Bool) (b : Byte) :
    (s.setSound b).advance.skipIf c = (s.advance.skipIf c).setSound b := by
  cases c <;> rfl

theorem State.advance_setLogicResult_setSound (s : State) (x : RegIx) (r b : Byte) :
    (s.setSound b).advance.setLogicResult x r = (s.advance.setLogicResult x r).setSound b := by
  have hq : (s.setSound b).advance.quirks.logic = s.advance.quirks.logic := rfl
  rw [State.setLogicResult, State.setLogicResult, hq]
  split <;> rfl

theorem exec_setSound {i : Instr} {s t : State} (b : Byte) (hi : ∀ x, i ≠ .ldStVx x) (hexec : exec i s = .next t) :
    exec i (s.setSound b) = .next (t.setSound b) := by
  rcases exec_cases hexec with ⟨hout, rfl⟩ | ⟨h, -⟩
  case inl => exact exec_of_outOfRange ((outOfRange_setSound i s b).2 hout)
  have h' : ¬i.outOfRange (s.setSound b) := mt (outOfRange_setSound i s b).1 h
  cases i with
  | ldStVx x => exact absurd rfl (hi x)
  | ret =>
    obtain rfl := next_unique (exec_ret (pos_of_not_outOfRange_ret h)) hexec
    exact exec_ret (pos_of_not_outOfRange_ret h')
  | call nnn =>
    obtain rfl := next_unique (exec_call (lt_of_not_outOfRange_call h)) hexec
    exact exec_call (lt_of_not_outOfRange_call h')
  | drw x y n =>
    obtain rfl := next_unique (exec_drw h) hexec
    exact exec_drw h'
  | skp x =>
    obtain rfl := next_unique (exec_skp (Nat.lt_of_not_le h)) hexec
    exact (exec_skp (Nat.lt_of_not_le h')).trans (congrArg _ (s.advance_skipIf_setSound _ b))
  | sknp x =>
    obtain rfl := next_unique (exec_sknp (Nat.lt_of_not_le h)) hexec
    exact (exec_sknp (Nat.lt_of_not_le h')).trans (congrArg _ (s.advance_skipIf_setSound _ b))
  | seVxNn | sneVxNn | seVxVy | sneVxVy =>
    cases hexec
    exact congrArg Host.Outcome.next (s.advance_skipIf_setSound _ b)
  | orVxVy x | andVxVy x | xorVxVy x =>
    cases hexec
    exact congrArg Host.Outcome.next (s.advance_setLogicResult_setSound x _ b)
  | ldVxK x =>
    have hkeys : (s.setSound b).pressedKeys = s.pressedKeys := rfl
    simp only [exec, execLdVxK, hkeys] at hexec ⊢
    cases hdown : s.pressedKeys <;> simp only [hdown] at hexec ⊢ <;> cases hexec <;> rfl
  | ldBVx x =>
    obtain rfl := next_unique (exec_ldBVx (Nat.le_of_not_lt h)) hexec
    exact exec_ldBVx (Nat.le_of_not_lt h')
  | ldMemVx x =>
    obtain rfl := next_unique (exec_ldMemVx (Nat.le_of_not_lt h)) hexec
    exact exec_ldMemVx (Nat.le_of_not_lt h')
  | ldVxMem x =>
    obtain rfl := next_unique (exec_ldVxMem (Nat.le_of_not_lt h)) hexec
    exact exec_ldVxMem (Nat.le_of_not_lt h')
  | _ => cases hexec; rfl

/-- Settles O59: `LD ST,Vx` writes the same value into both states; any other instruction keeps what it finds. -/
theorem soundIsNeverRead : Obligations.SoundIsNeverRead := by
  intro i s t b hexec
  by_cases hi : ∃ x, i = .ldStVx x
  case pos =>
    obtain ⟨x, rfl⟩ := hi
    cases hexec
    exact ⟨_, rfl, rfl, .inl rfl⟩
  case neg =>
    have hne : ∀ x, i ≠ .ldStVx x := fun x hx => hi ⟨x, hx⟩
    have hrow : Part.sound ∉ i.writes := by
      cases i with
      | ldStVx x => exact absurd rfl (hne x)
      | _ => simp [Instr.writes]
    exact ⟨t.setSound b, exec_setSound b hne hexec, rfl, .inr ⟨rfl, exec_keeps (p := .sound) hexec hrow (by decide)⟩⟩

end Sys2Proof.Machine
end

section
/-! SUPPORT. `cpu_step` by its cases, and the three ways of the host to call it (R6, R80 to R85, R175). -/

namespace Sys2Proof.Machine

theorem cpuStepWithResult_dead {s : State} {f : FaultStatus} (hf : s.fault = some f) :
    cpuStepWithResult s = (.noTransition, .fault (.dead f)) := by
  simp only [cpuStepWithResult, hf]

theorem cpuStepWithResult_stalled {s : State} (hf : s.fault = none) (hs : s.stalled = true) :
    cpuStepWithResult s = (.stalled, .next s) := by
  simp only [cpuStepWithResult, hf, hs, if_true]

/-- A running `cpu_step` at a word that decodes runs the instruction (R84). -/
theorem cpuStepWithResult_exec {s : State} {w : Word} {i : Instr} (hrun : s.running) (hw : s.fetch = some w)
    (hd : decode w = .ok i) : cpuStepWithResult s = (CpuResult.ofExec (exec i s), exec i s) := by
  obtain ⟨hf, hs⟩ := hrun
  simp only [cpuStepWithResult, hf, hs, hw, hd, Bool.false_eq_true, if_false]

/-- A running `cpu_step` past the top of memory faults (R82, R172). -/
theorem cpuStepWithResult_fetch_none {s : State} (hrun : s.running) (hw : s.fetch = none) :
    cpuStepWithResult s = (.faulted .outOfRange, .next (s.setFault (some .outOfRange))) := by
  obtain ⟨hf, hs⟩ := hrun
  simp only [cpuStepWithResult, hf, hs, hw, Bool.false_eq_true, if_false]
  rfl

/-- A running `cpu_step` at a word of no row faults (R83, R171). -/
theorem cpuStepWithResult_decode_error {s : State} {w : Word} {e : DecodeError} (hrun : s.running)
    (hw : s.fetch = some w) (hd : decode w = .error e) :
    cpuStepWithResult s = (.faulted (.unknownOpcode w), .next (s.setFault (some (.unknownOpcode w)))) := by
  obtain ⟨hf, hs⟩ := hrun
  simp only [cpuStepWithResult, hf, hs, hw, hd, Bool.false_eq_true, if_false]
  rfl

/-- The transition and the result of a `cpu_step`, from the pair. -/
theorem cpuStep_and_result {s : State} {res : CpuResult} {o : Host.Outcome State Fault Refusal}
    (h : cpuStepWithResult s = (res, o)) : cpuStep s = o ∧ cpuStepResult s = res :=
  ⟨congrArg Prod.snd h, congrArg Prod.fst h⟩

theorem State.fetch_eq {s : State} (h : s.pc.toNat + 1 ≤ 0xFFF) : s.fetch = some s.wordAtPc :=
  if_neg (Nat.not_lt_of_le h)

theorem State.fetch_eq_none {s : State} (h : s.pc.toNat + 1 > 0xFFF) : s.fetch = none := if_pos h

theorem State.stalled_eq_false_iff (s : State) :
    s.stalled = false ↔ ¬(s.vblankWait = true ∧ s.quirks.vblank = true) := by
  rw [State.stalled, ← Bool.not_eq_true, Bool.and_eq_true]

theorem cpuStep_next {s : State} (hf : s.fault = none) : ∃ t, cpuStep s = .next t := by
  cases hs : s.stalled with
  | true => exact ⟨s, (cpuStep_and_result (cpuStepWithResult_stalled hf hs)).1⟩
  | false =>
    cases hw : s.fetch with
    | none => exact ⟨_, (cpuStep_and_result (cpuStepWithResult_fetch_none ⟨hf, hs⟩ hw)).1⟩
    | some w =>
      cases hd : decode w with
      | error e => exact ⟨_, (cpuStep_and_result (cpuStepWithResult_decode_error ⟨hf, hs⟩ hw hd)).1⟩
      | ok i =>
        obtain ⟨t, ht⟩ := exec_next i s
        exact ⟨t, (cpuStep_and_result (cpuStepWithResult_exec ⟨hf, hs⟩ hw hd)).1.trans ht⟩

/-- A `cpu_step` that answers a next state either faulted, which is all it did and what it reports, or left the machine
without a fault, stalled or after an instruction (R85, R173). -/
theorem cpuStep_faults_or_runs {s t : State} (h : cpuStep s = .next t) :
    (∃ f, t = s.setFault (some f) ∧ cpuStepResult s = .faulted f) ∨
    (t.fault = none ∧ (t = s ∨ ∃ i, exec i s = .next t)) := by
  obtain ⟨hf, ⟨-, rfl, -⟩ | ⟨-, -, ht, hres⟩ | ⟨w, e, -, -, -, ht, hres⟩ | ⟨w, i, -, -, -, hexec, hres⟩⟩ :=
    cpuStep_cases s t h
  · exact .inr ⟨hf, .inl rfl⟩
  · exact .inl ⟨_, ht, hres⟩
  · exact .inl ⟨_, ht, hres⟩
  · rcases exec_cases hexec with ⟨-, rfl⟩ | ⟨-, hframe⟩
    · exact .inl ⟨_, rfl, hres⟩
    · have hkept : t.fault = s.fault := hframe .fault (not_mem_writes i).1
      exact .inr ⟨hkept.trans hf, .inr ⟨i, hexec⟩⟩

/-- The state a called `cpu_step` works on is that of the call, but for the calls still to come. -/
theorem State.callsCpuStep.eq_setPending {s u : State} (h : s.callsCpuStep u) : ∃ ops, u = s.setPending ops := by
  obtain ⟨-, rfl⟩ | ⟨rest, -, rfl⟩ | ⟨c, n, d, rest, -, rfl⟩ := h
  · exact ⟨u.pending, rfl⟩
  · exact ⟨_, rfl⟩
  · exact ⟨_, rfl⟩

theorem State.callsCpuStep.fault_eq {s u : State} (h : s.callsCpuStep u) : u.fault = s.fault := by
  obtain ⟨ops, rfl⟩ := h.eq_setPending
  rfl

/-- However it is called, the step is the `cpu_step` of the state it works on. -/
theorem step_of_callsCpuStep {s u : State} (h : s.callsCpuStep u) (hf : s.fault = none) : step s = cpuStep u := by
  obtain ⟨hp, rfl⟩ | ⟨rest, hp, rfl⟩ | ⟨c, n, d, rest, hp, rfl⟩ := h
  · rw [step, hp]
  · exact step_of_pending_cons hp
  · refine (step_of_pending_cons hp).trans ?_
    exact if_neg (not_not.2 hf)

end Sys2Proof.Machine
end

section
/-! PROOF. The step: what it runs, when it stalls, how it faults and what it never writes (R80 to R86, R170 to R174). -/

namespace Sys2Proof.Machine

theorem ofExec_eq_executed {o : Host.Outcome State Fault Refusal} {t : State} (ho : o = .next t) (hf : t.fault = none) :
    CpuResult.ofExec o = .executed := by
  simp only [ho, CpuResult.ofExec, hf]

/-- Settles O6: not stalled and without a fault, the call fetches and decodes as stated. -/
theorem stepRunsDecodedInstruction : Obligations.StepRunsDecodedInstruction := by
  intro s u i hcall hf hstall hpc hd
  have hrun : u.running := ⟨hcall.fault_eq.trans hf, u.stalled_eq_false_iff.2 hstall⟩
  obtain ⟨hstep, hres⟩ := cpuStep_and_result (cpuStepWithResult_exec hrun (State.fetch_eq hpc) hd)
  exact ⟨(step_of_callsCpuStep hcall hf).trans hstep, fun t ht hft => hres.trans (ofExec_eq_executed ht hft)⟩

/-- A jump to its own address changes nothing: an address that can be fetched from fits in `nnn`. -/
theorem exec_self_jump {s : State} (h : s.pc.toNat + 1 ≤ 0xFFF) :
    exec (.jp (BitVec.ofNat 12 s.pc.toNat)) s = .next s := by
  have hpc : zext16 (BitVec.ofNat 12 s.pc.toNat) = s.pc :=
    BitVec.eq_of_toNat_eq ((zext16_toNat _).trans (Nat.mod_eq_of_lt (by omega)))
  exact congrArg (fun w => Host.Outcome.next (s.setPc w)) hpc

/-- At a finished state the word at `pc` is there to be fetched, and is a jump to itself (R86; log entry 32). -/
theorem State.finished_iff (s : State) : s.finished = true ↔ s.fault = none ∧ s.pc.toNat + 1 ≤ 0xFFF ∧
    decode s.wordAtPc = .ok (.jp (BitVec.ofNat 12 s.pc.toNat)) := by
  rw [State.finished, Bool.and_eq_true, Option.isNone_iff_eq_none, State.atSelfJump]
  by_cases h : s.pc.toNat + 1 ≤ 0xFFF
  · simp [State.fetch_eq h, h]
  · simp [State.fetch_eq_none (Nat.lt_of_not_le h), h]

/-- Settles O7: the latch and the quirk together stall; a self-jump runs into itself. -/
theorem stalledStepChangesNothing : Obligations.StalledStepChangesNothing := by
  intro s u hcall hf
  have hfu : u.fault = none := hcall.fault_eq.trans hf
  have hstep := step_of_callsCpuStep hcall hf
  have hstalls : u.stalled = true → step s = .next u ∧ cpuStepResult u = .stalled := fun hs =>
    (cpuStep_and_result (cpuStepWithResult_stalled hfu hs)).imp_left hstep.trans
  refine ⟨fun hlatch hq => ?stalls, fun _ hq i hi => ?runs, fun hfin => ?idles⟩
  case stalls => exact hstalls (by rw [State.stalled, hlatch, hq]; rfl)
  case runs =>
    have hs : u.stalled = false := by rw [State.stalled, hq, Bool.and_false]
    obtain ⟨w, hw, hd⟩ := Option.map_eq_some_iff.1 hi
    exact hstep.trans (cpuStep_and_result (cpuStepWithResult_exec ⟨hfu, hs⟩ hw hd)).1
  case idles =>
    obtain ⟨-, hpc, hd⟩ := u.finished_iff.1 hfin
    cases hs : u.stalled with
    | true => exact ⟨(hstalls hs).1, fun h => absurd h (by decide)⟩
    | false =>
      obtain ⟨hrun, hres⟩ := cpuStep_and_result (cpuStepWithResult_exec ⟨hfu, hs⟩ (State.fetch_eq hpc) hd)
      have hself := exec_self_jump hpc
      exact ⟨hstep.trans (hrun.trans hself), fun _ => hres.trans (ofExec_eq_executed hself hfu)⟩

/-- Settles O8: the two cases of fetch and of decode that stop before an instruction. -/
theorem fetchAndDecodeFaults : Obligations.FetchAndDecodeFaults := by
  intro s u hcall hrun
  have hstep := step_of_callsCpuStep hcall (hcall.fault_eq.symm.trans hrun.1)
  refine ⟨fun hpc => ?fetch, fun hpc e hd => ?decode⟩
  case fetch =>
    exact (cpuStep_and_result (cpuStepWithResult_fetch_none hrun (State.fetch_eq_none hpc))).imp_left hstep.trans
  case decode =>
    exact (cpuStep_and_result (cpuStepWithResult_decode_error hrun (State.fetch_eq hpc) hd)).imp_left hstep.trans

/-- Settles O10: a `cpu_step` that did not run to its end did nothing but record and report the fault. -/
theorem faultingStepChangesOnlyFault : Obligations.FaultingStepChangesOnlyFault := by
  intro s u t f hcall hf hstep hft
  rw [step_of_callsCpuStep hcall hf] at hstep
  rcases cpuStep_faults_or_runs hstep with ⟨g, rfl, hres⟩ | ⟨hnone, -⟩
  · obtain rfl : g = f := Option.some.inj hft
    exact ⟨rfl, hres⟩
  · exact absurd (hnone.symm.trans hft) (by simp)

/-- Settles O11: the fetch, and the instruction's own condition, are all that raises it. -/
theorem outOfRangeExactly : Obligations.OutOfRangeExactly := by
  intro s u hcall hrun
  rw [step_of_callsCpuStep hcall (hcall.fault_eq.symm.trans hrun.1)]
  by_cases hpc : u.pc.toNat + 1 > 0xFFF
  case pos =>
    have hstep := (cpuStep_and_result (cpuStepWithResult_fetch_none hrun (State.fetch_eq_none hpc))).1
    exact ⟨fun _ => .inl hpc, fun _ => ⟨_, hstep, rfl⟩⟩
  have hle : u.pc.toNat + 1 ≤ 0xFFF := Nat.le_of_not_lt hpc
  simp only [hpc, hle, true_and, false_or]
  cases hd : decode u.wordAtPc with
  | error e =>
    rw [(cpuStep_and_result (cpuStepWithResult_decode_error hrun (State.fetch_eq hle) hd)).1]
    constructor
    · rintro ⟨t, ht, hft⟩; cases ht; cases hft
    · rintro ⟨i, hi, -⟩; cases hi
  | ok i =>
    rw [(cpuStep_and_result (cpuStepWithResult_exec hrun (State.fetch_eq hle) hd)).1]
    constructor
    · rintro ⟨t, ht, hft⟩
      rcases exec_cases ht with ⟨hout, -⟩ | ⟨-, hframe⟩
      · exact ⟨i, rfl, hout⟩
      · have hkept : t.fault = u.fault := hframe .fault (not_mem_writes i).1
        rw [hkept, hrun.1] at hft
        cases hft
    · rintro ⟨j, hj, hout⟩
      cases hj
      exact ⟨_, exec_of_outOfRange hout, rfl⟩

/-- Settles O58: neither a fault nor a row of the access table names them. -/
theorem cpuStepKeepsHostState : Obligations.CpuStepKeepsHostState := by
  intro s u t hcall hf hstep
  rw [step_of_callsCpuStep hcall hf] at hstep
  obtain ⟨ops, rfl⟩ := hcall.eq_setPending
  rcases cpuStep_faults_or_runs hstep with ⟨g, rfl, -⟩ | ⟨-, rfl | ⟨i, hexec⟩⟩
  · exact ⟨rfl, rfl, ⟨rfl, rfl, rfl⟩, rfl, rfl⟩
  · exact ⟨rfl, rfl, ⟨rfl, rfl, rfl⟩, rfl, rfl⟩
  · obtain ⟨-, hkeys, hprofile, haccs, hparams, hpending⟩ := not_mem_writes i
    exact ⟨exec_keeps (p := .keys) hexec hkeys (by decide), exec_keeps (p := .profile) hexec hprofile (by decide),
      exec_keeps (p := .accs) hexec haccs (by decide), exec_keeps (p := .params) hexec hparams (by decide),
      exec_keeps (p := .pending) hexec hpending (by decide)⟩

end Sys2Proof.Machine
end

section
/-! PROOF. The rate scheduler: whole ticks and a fraction of a tick, over one call and over many (R190 to R192). -/

namespace Sys2Proof.Machine

/-- No part of a tick is lost: the ticks due and the fraction kept are the whole. -/
theorem ticksDue_add_accAfter (acc e f : Rat) : (ticksDue acc e f : Rat) + accAfter acc e f = acc + e * f :=
  add_sub_cancel _ _

theorem accTotal_nonneg {acc e f : Rat} (hacc : 0 ≤ acc) (he : 0 ≤ e) (hf : 0 ≤ f) : 0 ≤ accTotal acc e f :=
  add_nonneg hacc (mul_nonneg he hf)

/-- Of a total that is not negative, `schedule` keeps the fractional part. -/
theorem accAfter_eq_fract {acc e f : Rat} (h : 0 ≤ accTotal acc e f) :
    accAfter acc e f = Int.fract (accTotal acc e f) := by
  have hfloor : ((ticksDue acc e f : Int) : Rat) = ⌊accTotal acc e f⌋ :=
    congrArg _ (Int.toNat_of_nonneg (Int.floor_nonneg.2 h))
  rw [accAfter, Int.fract, ← hfloor, Int.cast_natCast]

/-- A fraction of a tick, some time later, is a fraction of a tick (R191 (a)). -/
theorem fraction_accAfter {acc e f : Rat} (hacc : fraction acc) (he : 0 ≤ e) (hf : 0 ≤ f) :
    fraction (accAfter acc e f) := by
  rw [accAfter_eq_fract (accTotal_nonneg hacc.1 he hf)]
  exact ⟨Int.fract_nonneg _, Int.fract_lt_one _⟩

/-- Over a sequence of calls, too, ticks and fraction are the whole, and the fraction is one. -/
theorem scheduleRun_spec {f acc : Rat} {elapsed : List Rat} (hf : 0 ≤ f) (hacc : fraction acc)
    (he : ∀ e ∈ elapsed, 0 ≤ e) :
    ((scheduleRun f acc elapsed).1 : Rat) + (scheduleRun f acc elapsed).2 = acc + elapsed.sum * f ∧
      fraction (scheduleRun f acc elapsed).2 := by
  induction elapsed generalizing acc with
  | nil => simpa [scheduleRun] using hacc
  | cons e rest ih =>
    have hfirst := fraction_accAfter hacc (he e (by simp)) hf
    obtain ⟨hsum, hfrac⟩ := ih hfirst fun d hd => he d (by simp [hd])
    refine ⟨?_, hfrac⟩
    simp only [scheduleRun, List.sum_cons, Nat.cast_add]
    linear_combination ticksDue_add_accAfter acc e f + hsum

/-- Settles O52: a whole number and a fraction of a tick are the floor and the fractional part of their sum. -/
theorem scheduleLosesNoTicks : Obligations.ScheduleLosesNoTicks := by
  intro f elapsed hf he
  obtain ⟨hsum, hfrac⟩ := scheduleRun_spec hf (acc := 0) ⟨le_refl _, zero_lt_one⟩ he
  rw [zero_add] at hsum
  have hfloor : ((scheduleRun f 0 elapsed).1 : Int) = ⌊elapsed.sum * f⌋ := by
    refine (Int.floor_eq_iff.2 ⟨?_, ?_⟩).symm
    · rw [Int.cast_natCast]; linarith [hfrac.1]
    · rw [Int.cast_natCast]; linarith [hfrac.2]
  refine ⟨hfloor, ?_⟩
  rw [← hfloor, Int.cast_natCast]
  linarith

/-- Over a common clock the accumulator's total is one quotient of naturals. -/
theorem accTotal_clock (clkHz num d f : Nat) :
    accTotal ((num : Rat) / clkHz) ((d : Rat) / clkHz) f = ((num + d * f : Nat) : Rat) / clkHz := by
  rw [accTotal]
  push_cast
  ring

/-- Settles O53: the floor of a quotient of naturals is their integer quotient. -/
theorem integerSchedulerAgrees : Obligations.IntegerSchedulerAgrees := by
  intro clkHz num d f hclk _
  have hticks : (num + d * f) / clkHz = ticksDue ((num : Rat) / clkHz) ((d : Rat) / clkHz) f := by
    rw [ticksDue, accTotal_clock, Int.floor_toNat, Nat.floor_div_eq_div]
  refine ⟨hticks, ?_⟩
  have hpos : (clkHz : Rat) ≠ 0 := Nat.cast_ne_zero.2 hclk.ne'
  have hsplit : (clkHz : Rat) * ((num + d * f) / clkHz : Nat) + ((num + d * f) % clkHz : Nat) =
      (num + d * f : Nat) := by
    exact_mod_cast Nat.div_add_mod (num + d * f) clkHz
  rw [accAfter, accTotal_clock, ← hticks, scheduleInteger, ← hsplit]
  field_simp
  ring

end Sys2Proof.Machine
end

section
/-! SUPPORT. The frames of the host's operations (R180 to R203): none of them writes the fault, the latch or a register,
but `reset`, `timer_tick` and the `cpu_step`. -/

namespace Sys2Proof.Machine

theorem State.unchanged_setKeys (s : State) (k : Vector Bool 16) : Unchanged [.keys] s (s.setKeys k) := by
  intro p hp
  cases p with
  | keys => exact absurd (List.mem_singleton_self Part.keys) hp
  | _ => simp [Part.same]

theorem State.unchanged_setAccs (s : State) (c t d : Rat) : Unchanged [.accs] s (s.setAccs c t d) := by
  intro p hp
  cases p with
  | accs => exact absurd (List.mem_singleton_self Part.accs) hp
  | _ => simp [Part.same]

theorem Unchanged.refl (parts : List Part) (s : State) : Unchanged parts s s := s.unchanged_setPc parts s.pc

theorem hostLoad_of_le {image : List Byte} (s : State) (h : image.length ≤ 3584) :
    hostLoad image s = s.store 0x200 image := if_pos h

theorem hostLoad_of_gt {image : List Byte} (s : State) (h : 3584 < image.length) : hostLoad image s = s :=
  if_neg (Nat.not_le_of_lt h)

theorem hostSetKey_of_lt {k : Nat} {pressed : Bool} (s : State) (h : k < 16) :
    hostSetKey k pressed s = s.setKeys (s.keys.set k pressed) := dif_pos h

theorem hostSetKey_of_ge {k : Nat} {pressed : Bool} (s : State) (h : ¬k < 16) : hostSetKey k pressed s = s := dif_neg h

theorem hostSchedule_of_le {prev now : Rat} (s : State) (h : prev ≤ now) : hostSchedule prev now s =
    s.setAccs (accAfter s.accCpu (now - prev) s.params.freqCpu)
      (accAfter s.accTimers (now - prev) s.params.freqTimers)
      (accAfter s.accDisplay (now - prev) s.params.freqDisplay) := if_pos h

theorem hostSchedule_of_lt {prev now : Rat} (s : State) (h : now < prev) : hostSchedule prev now s = s :=
  if_neg (not_le_of_gt h)

/-- The counts of a schedule that is not refused (R190). -/
def State.dueCounts (s : State) (prev now : Rat) : TickCounts :=
  ⟨ticksDue s.accCpu (now - prev) s.params.freqCpu, ticksDue s.accTimers (now - prev) s.params.freqTimers,
    ticksDue s.accDisplay (now - prev) s.params.freqDisplay⟩

theorem scheduleCounts_of_le {prev now : Rat} (s : State) (h : prev ≤ now) :
    scheduleCounts prev now s = some (s.dueCounts prev now) := if_pos h

theorem scheduleCounts_of_lt {prev now : Rat} (s : State) (h : now < prev) : scheduleCounts prev now s = none :=
  if_neg (not_le_of_gt h)

theorem hostFrame_of_le {prev now : Rat} (s : State) (h : prev ≤ now) : hostFrame prev now s =
    (hostSchedule prev now s).setPending (.frameRest (s.dueCounts prev now).cpu (s.dueCounts prev now).timers
      (s.dueCounts prev now).display :: s.pending) := by
  rw [hostFrame, scheduleCounts_of_le s h]

theorem hostFrame_of_lt {prev now : Rat} (s : State) (h : now < prev) : hostFrame prev now s = s := by
  rw [hostFrame, scheduleCounts_of_lt s h]

theorem hostLoad_unchanged (image : List Byte) (s : State) :
    Unchanged [.mem] s (hostLoad image s) ∧ (hostLoad image s).pc = s.pc ∧
      (hostLoad image s).pending = s.pending := by
  by_cases h : image.length ≤ 3584
  · rw [hostLoad_of_le s h]; exact ⟨s.unchanged_store 0x200 image, rfl, rfl⟩
  · rw [hostLoad_of_gt s (Nat.lt_of_not_le h)]; exact ⟨.refl _ s, rfl, rfl⟩

theorem hostSetKey_unchanged (k : Nat) (pressed : Bool) (s : State) :
    Unchanged [.keys] s (hostSetKey k pressed s) ∧ (hostSetKey k pressed s).pc = s.pc ∧
      (hostSetKey k pressed s).pending = s.pending := by
  by_cases h : k < 16
  · rw [hostSetKey_of_lt s h]; exact ⟨s.unchanged_setKeys _, rfl, rfl⟩
  · rw [hostSetKey_of_ge s h]; exact ⟨.refl _ s, rfl, rfl⟩

theorem hostSchedule_unchanged (prev now : Rat) (s : State) :
    Unchanged [.accs] s (hostSchedule prev now s) ∧ (hostSchedule prev now s).pc = s.pc ∧
      (hostSchedule prev now s).pending = s.pending := by
  rcases le_or_gt prev now with h | h
  · rw [hostSchedule_of_le s h]; exact ⟨s.unchanged_setAccs _ _ _, rfl, rfl⟩
  · rw [hostSchedule_of_lt s h]; exact ⟨.refl _ s, rfl, rfl⟩

theorem hostFrame_unchanged (prev now : Rat) (s : State) : Unchanged [.accs, .pending] s (hostFrame prev now s) := by
  rcases le_or_gt prev now with h | h
  · rw [hostFrame_of_le s h]
    exact ((hostSchedule_unchanged prev now s).1.mono (by simp)).trans ((State.unchanged_setPending _ _).mono (by simp))
  · rw [hostFrame_of_lt s h]; exact .refl _ s

/-- The host's calls that are neither `reset`, nor a tick of the timers, nor a `cpu_step` or a step of a frame. -/
def HostOp.quiet (op : HostOp) : Prop :=
  match op with
  | .load _ | .setKey _ _ | .selectProfile _ | .displayTick | .schedule _ _ | .frame _ _ => True
  | .reset | .cpuStep | .timerTick | .frameRest _ _ _ => False

/-- A quiet call answers a next state and writes only what the host owns, and memory. -/
theorem hostCall_quiet {op : HostOp} (hop : op.quiet) (s : State) :
    ∃ t, hostCall op s = .next t ∧ Unchanged [.mem, .keys, .profile, .accs, .pending] s t := by
  cases op with
  | load image => exact ⟨_, rfl, (hostLoad_unchanged image s).1.mono (by simp)⟩
  | setKey k pressed => exact ⟨_, rfl, (hostSetKey_unchanged k pressed s).1.mono (by simp)⟩
  | selectProfile name => exact ⟨_, rfl, (s.unchanged_setProfile _).mono (by simp)⟩
  | displayTick => exact ⟨_, rfl, .refl _ s⟩
  | schedule prev now => exact ⟨_, rfl, (hostSchedule_unchanged prev now s).1.mono (by simp)⟩
  | frame prev now => exact ⟨_, rfl, (hostFrame_unchanged prev now s).mono (by simp)⟩
  | reset | cpuStep | timerTick | frameRest => exact False.elim hop

end Sys2Proof.Machine
end

section
/-! PROOF. Steps that make a host call: on a dead machine, without a fault, and what they do to the latch (R81,
R174). -/

namespace Sys2Proof.Machine

theorem cpuStep_dead {s : State} {f : FaultStatus} (hf : s.fault = some f) : cpuStep s = .fault (.dead f) :=
  (cpuStep_and_result (cpuStepWithResult_dead hf)).1

theorem hostFrameRest_faulted {s : State} (hf : s.fault ≠ none) (c n d : Nat) : hostFrameRest c n d s = .next s :=
  if_pos hf

/-- The next call of a frame on a machine without a fault is a CPU step while any is left (R193). -/
theorem hostFrameRest_cpu {s : State} (hf : s.fault = none) (c n d : Nat) :
    hostFrameRest (c + 1) n d s = cpuStep (s.setPending (.frameRest c n d :: s.pending)) := if_neg (not_not.2 hf)

/-- Then a timer tick. -/
theorem hostFrameRest_timers {s : State} (hf : s.fault = none) (n d : Nat) :
    hostFrameRest 0 (n + 1) d s = .next (hostTimerTick (s.setPending (.frameRest 0 n d :: s.pending))) :=
  if_neg (not_not.2 hf)

/-- Then a display tick. -/
theorem hostFrameRest_display {s : State} (hf : s.fault = none) (d : Nat) :
    hostFrameRest 0 0 (d + 1) s = .next (s.setPending (.frameRest 0 0 d :: s.pending)) := if_neg (not_not.2 hf)

/-- Then nothing: the frame is over. -/
theorem hostFrameRest_done {s : State} (hf : s.fault = none) : hostFrameRest 0 0 0 s = .next s :=
  if_neg (not_not.2 hf)

/-- Settles O9: only `cpu_step` looks at the fault, and only `reset` writes it. -/
theorem deadUntilReset : Obligations.DeadUntilReset := by
  intro s f hf
  refine ⟨(cpuStep_and_result (cpuStepWithResult_dead hf)).2, fun hp => ?_, fun rest hp => ?_,
    fun op rest hp hcpu hreset => ?other, fun rest hp => ⟨_, step_of_pending_cons hp, rfl⟩⟩
  · rw [step, hp]; exact cpuStep_dead hf
  · exact (step_of_pending_cons hp).trans (cpuStep_dead hf)
  case other =>
    rw [step_of_pending_cons hp]
    by_cases hop : op.quiet
    · obtain ⟨t, ht, hframe⟩ := hostCall_quiet hop (s.setPending rest)
      have hkept : t.fault = s.fault := hframe .fault (by simp)
      exact ⟨t, ht, hkept.trans hf⟩
    · cases op with
      | reset => exact absurd rfl hreset
      | cpuStep => exact absurd rfl hcpu
      | timerTick => exact ⟨_, rfl, hf⟩
      | frameRest c n d =>
        have hne : (s.setPending rest).fault ≠ none := fun hnone => absurd (hf.symm.trans hnone) (by simp)
        exact ⟨_, hostFrameRest_faulted hne c n d, hf⟩
      | _ => exact absurd trivial hop

theorem hostFrameRest_next {s : State} (hf : s.fault = none) (c n d : Nat) : ∃ t, hostFrameRest c n d s = .next t := by
  match c, n, d with
  | c + 1, n, d =>
    rw [hostFrameRest_cpu hf]
    exact cpuStep_next (s := s.setPending _) hf
  | 0, n + 1, d => exact ⟨_, hostFrameRest_timers hf n d⟩
  | 0, 0, d + 1 => exact ⟨_, hostFrameRest_display hf d⟩
  | 0, 0, 0 => exact ⟨_, hostFrameRest_done hf⟩

theorem hostCall_next (op : HostOp) {s : State} (hf : s.fault = none) : ∃ t, hostCall op s = .next t := by
  cases op with
  | cpuStep => exact cpuStep_next hf
  | frameRest c n d => exact hostFrameRest_next hf c n d
  | _ => exact ⟨_, rfl⟩

/-- Settles O12: every instruction completes or records a fault, and so does every call without one. -/
theorem everyInstructionAnswersNext : Obligations.EveryInstructionAnswersNext := by
  refine ⟨exec_next, fun s hf => ?_⟩
  cases hp : s.pending with
  | nil => rw [step, hp]; exact cpuStep_next hf
  | cons op rest => rw [step_of_pending_cons hp]; exact hostCall_next op (s := s.setPending rest) hf

/-- No instruction clears the latch: `DRW` alone writes it, and only to set it (R156). -/
theorem exec_latch {i : Instr} {s t : State} (hexec : exec i s = .next t) (hlatch : s.vblankWait = true) :
    t.vblankWait = true := by
  by_cases hrow : Part.latch ∈ i.writes
  case neg =>
    have hkept : t.vblankWait = s.vblankWait := exec_keeps (p := .latch) hexec hrow (by decide)
    exact hkept.trans hlatch
  cases i with
  | drw x y n =>
    rcases exec_cases hexec with ⟨-, rfl⟩ | ⟨h, -⟩
    · exact hlatch
    · obtain rfl := next_unique (exec_drw h) hexec
      exact congrArg (· || s.quirks.vblank) hlatch
  | _ => simp [Instr.writes] at hrow

theorem cpuStep_latch {s t : State} (hstep : cpuStep s = .next t) (hlatch : s.vblankWait = true) :
    t.vblankWait = true := by
  rcases cpuStep_faults_or_runs hstep with ⟨g, rfl, -⟩ | ⟨-, rfl | ⟨i, hexec⟩⟩
  · exact hlatch
  · exact hlatch
  · exact exec_latch hexec hlatch

/-- Settles O40: a draw under the quirk leaves the machine stalled, and every call but the three keeps the latch. -/
theorem vblankLatchClearedOnlyByTick : Obligations.VblankLatchClearedOnlyByTick := by
  refine ⟨fun x y n s t hp hf hq hexec hft => ?stalled, fun s t hstep hlatch hfall => ?falls⟩
  case stalled =>
    rcases exec_cases hexec with ⟨-, rfl⟩ | ⟨h, -⟩
    · cases hft
    · obtain rfl := next_unique (exec_drw h) hexec
      have hpend : (s.drawn x y n).pending = [] := hp
      have hstall : (s.drawn x y n).stalled = true := by
        have hset : (s.drawn x y n).vblankWait = (s.vblankWait || s.quirks.vblank) := rfl
        have hquirk : (s.drawn x y n).quirks.vblank = s.quirks.vblank := rfl
        rw [State.stalled, hset, hquirk, hq, Bool.or_true, Bool.and_true]
      rw [step, hpend]
      exact (cpuStep_and_result (cpuStepWithResult_stalled hft hstall)).1
  case falls =>
    have hne : ¬t.vblankWait = true := ne_true_of_eq_false hfall
    rcases step_cases s t hstep with ⟨-, hcpu⟩ | ⟨op, rest, hp, hcall⟩
    · exact absurd (cpuStep_latch hcpu hlatch) hne
    refine ⟨op, rest, hp, ?_⟩
    by_cases hop : op.quiet
    · obtain ⟨u, hu, hframe⟩ := hostCall_quiet hop (s.setPending rest)
      obtain rfl := next_unique hu hcall
      have hkept : u.vblankWait = s.vblankWait := hframe .latch (by simp)
      exact absurd (hkept.trans hlatch) hne
    · cases op with
      | reset => exact .inr (.inl rfl)
      | timerTick => exact .inl rfl
      | cpuStep => exact absurd (cpuStep_latch (s := s.setPending rest) hcall hlatch) hne
      | frameRest c n d =>
        rcases hostFrameRest_cases c n d _ t hcall with ⟨-, rfl⟩ | ⟨-, ⟨c', -, hcpu⟩ | ⟨n', rfl, rfl, -⟩ |
          ⟨d', -, -, -, rfl⟩ | ⟨-, -, -, rfl⟩⟩
        · exact absurd hlatch hne
        · exact absurd (cpuStep_latch hcpu hlatch) hne
        · exact .inr (.inr ⟨n', d, rfl⟩)
        · exact absurd hlatch hne
        · exact absurd hlatch hne
      | _ => exact absurd trivial hop

/-- Settles O35: the two bytes at `I + k` are those of the stored registers, and nothing else decides what a running
`cpu_step` runs. -/
theorem storedCodeRuns : Obligations.StoredCodeRuns := by
  intro x k s i hk hkx hrun hx hd
  obtain ⟨t, hexec, hbytes, -, -, -, hframe⟩ := (bulkStoreWritesRegisters x s).1 hx
  refine ⟨t, hexec, ?_⟩
  intro r u hu hcall
  obtain rfl : u = t.setPc (s.i + BitVec.ofNat 16 k.val) := hu
  have hfault : t.fault = s.fault := hframe .fault (by simp)
  have hlatch : t.vblankWait = s.vblankWait := hframe .latch (by simp)
  have hprofile : t.profile = s.profile := hframe .profile (by simp)
  have hstalled : t.stalled = s.stalled := by
    rw [State.stalled, State.stalled, State.quirks_eq, State.quirks_eq, hlatch, hprofile]
  have hpc : (s.i + BitVec.ofNat 16 k.val).toNat = s.i.toNat + k.val := by
    rw [BitVec.toNat_add, BitVec.toNat_ofNat]; omega
  have hfetch : (t.setPc (s.i + BitVec.ofNat 16 k.val)).fetch =
      some (wordOfBytes (s.getV k) (s.getV ⟨k.val + 1, hk⟩)) := by
    rw [State.fetch_eq (by rw [State.setPc_pc]; omega), State.wordAtPc, State.byteAt_setPc, State.byteAt_setPc,
      State.setPc_pc, hpc, hbytes k (Fin.le_def.2 (by omega)), Nat.add_assoc,
      hbytes ⟨k.val + 1, hk⟩ (Fin.le_def.2 hkx)]
  have hrun' : (t.setPc (s.i + BitVec.ofNat 16 k.val)).running := ⟨hfault.trans hrun.1, hstalled.trans hrun.2⟩
  rw [step_of_callsCpuStep hcall (hcall.fault_eq.symm.trans hrun'.1)]
  exact (cpuStep_and_result (cpuStepWithResult_exec hrun' hfetch hd)).1

end Sys2Proof.Machine
end

section
/-! PROOF. The host's operations other than `timer_tick` and `select_profile` (R31, R180 to R203). -/

namespace Sys2Proof.Machine

theorem step_setKey {s : State} {rest : List HostOp} {k : Nat} {pressed : Bool}
    (hp : s.pending = .setKey k pressed :: rest) : step s = .next (hostSetKey k pressed (s.setPending rest)) :=
  step_of_pending_cons hp

/-- The keys after `set_key`: the one named, if it exists, and the others as they were (R180). -/
theorem hostSetKey_keys (k : Nat) (pressed : Bool) (s : State) (j : Fin 16) :
    (hostSetKey k pressed s).keys[j.val] = if j.val = k then pressed else s.keys[j.val] := by
  by_cases h : k < 16
  · rw [hostSetKey_of_lt s h, State.setKeys_keys, Vector.getElem_set]
    exact if_congr eq_comm rfl rfl
  · rw [hostSetKey_of_ge s h, if_neg (by omega)]

/-- Settles O46: `set_key` stores one key or nothing, `display_tick` is the identity. -/
theorem setKeyAndDisplayTick : Obligations.SetKeyAndDisplayTick := by
  intro s rest k pressed
  refine ⟨fun hp => ?key, fun hp => ?tick⟩
  case key =>
    obtain ⟨hframe, hpc, hpend⟩ := hostSetKey_unchanged k pressed (s.setPending rest)
    exact ⟨_, step_setKey hp, hpc, hpend, hostSetKey_keys k pressed (s.setPending rest),
      (hframe.mono (by simp)).of_setPending (by simp)⟩
  case tick => exact ⟨_, step_of_pending_cons hp, rfl, rfl, s.unchanged_setPending rest⟩

theorem resetByte_font (p : Params) (k : Fin 80) : resetByte p k.val = p.font[k.val] := dif_pos k.isLt

theorem resetByte_bigFont (p : Params) {a : Nat} (hlo : 0x050 ≤ a) (hhi : a < 0x0F0) :
    resetByte p a = p.bigFont.getD (a - 0x050) 0 :=
  (dif_neg (Nat.not_lt_of_le hlo)).trans (if_pos hhi)

theorem resetByte_above (p : Params) {a : Nat} (h : 0x0F0 ≤ a) : resetByte p a = 0 :=
  (dif_neg (by omega)).trans (if_neg (Nat.not_lt_of_le h))

theorem creation_files (p : Params) (k : Fin 16) : (State.creation p).getV k = 0 ∧ (State.creation p).rpl[k.val] = 0 ∧
    (State.creation p).stack[k.val] = 0 ∧ (State.creation p).keys[k.val] = false := by
  simp [State.creation, State.getV]

theorem creation_cells (p : Params) (r c : Nat) : (State.creation p).screen.cell r c = false := by
  unfold Screen.cell
  split <;> simp [State.creation]

/-- Settles O48: `reset` is creation with the profile, the accumulators and the model's own two fields put back. -/
theorem resetRestoresMachineState : Obligations.ResetRestoresMachineState := by
  intro s rest hp
  exact ⟨_, step_of_pending_cons hp, rfl, rfl, rfl, rfl, rfl, rfl, rfl, rfl, creation_files s.params,
    creation_cells s.params, resetByte_font s.params, fun _ => resetByte_bigFont s.params,
    fun _ => resetByte_above s.params, rfl, rfl, ⟨rfl, rfl, rfl⟩, rfl⟩

/-- Settles O49: memory lists nothing at creation, so each byte is its reset byte. -/
theorem creationState : Obligations.CreationState := by
  refine ⟨?values, rfl, rfl, rfl, rfl, rfl⟩
  rintro p _ rfl
  exact ⟨rfl, rfl, rfl, rfl, rfl, rfl, rfl, rfl, creation_files p, creation_cells p, resetByte_font p,
    fun _ => resetByte_bigFont p, fun _ => resetByte_above p, rfl, rfl, rfl, rfl, rfl⟩

/-- Settles O50: an image that fits is a store at 0x200, any other changes nothing. -/
theorem loadCopiesImage : Obligations.LoadCopiesImage := by
  intro s rest image hp
  obtain ⟨hframe, hpc, hpend⟩ := hostLoad_unchanged image (s.setPending rest)
  refine ⟨_, step_of_pending_cons hp, hpc, hpend, (hframe.mono (by simp)).of_setPending (by simp),
    fun hfits => ?fits, fun hlong => ?long⟩
  case fits =>
    rw [hostLoad_of_le _ hfits]
    exact ⟨fun k hk => State.byteAt_store_add _ _ k _ hk, (s.setPending rest).bytesKept_store 0x200 image⟩
  case long =>
    rw [hostLoad_of_gt _ hlong]
    exact fun a => rfl

/-- The accumulators and the counts of a schedule that is not refused, together (R190). -/
theorem dueCounts_add_accs (s : State) {prev now : Rat} (h : prev ≤ now) :
    ((s.dueCounts prev now).cpu : Rat) + (hostSchedule prev now s).accCpu =
        s.accCpu + (now - prev) * s.params.freqCpu ∧
      ((s.dueCounts prev now).timers : Rat) + (hostSchedule prev now s).accTimers =
        s.accTimers + (now - prev) * s.params.freqTimers ∧
      ((s.dueCounts prev now).display : Rat) + (hostSchedule prev now s).accDisplay =
        s.accDisplay + (now - prev) * s.params.freqDisplay := by
  rw [hostSchedule_of_le s h]
  exact ⟨ticksDue_add_accAfter .., ticksDue_add_accAfter .., ticksDue_add_accAfter ..⟩

theorem hostSchedule_fraction {s : State} {prev now : Rat} (h : prev ≤ now) (hwf : s.params.wf)
    (hcpu : fraction s.accCpu) (htimers : fraction s.accTimers) (hdisplay : fraction s.accDisplay) :
    fraction (hostSchedule prev now s).accCpu ∧ fraction (hostSchedule prev now s).accTimers ∧
      fraction (hostSchedule prev now s).accDisplay := by
  obtain ⟨-, hfcpu, hftimers, hfdisplay⟩ := hwf
  have he : 0 ≤ now - prev := sub_nonneg.2 h
  rw [hostSchedule_of_le s h]
  exact ⟨fraction_accAfter hcpu he hfcpu, fraction_accAfter htimers he hftimers,
    fraction_accAfter hdisplay he hfdisplay⟩

/-- Settles O51: each accumulator is split by itself, at its own frequency. -/
theorem scheduleSplitsExactly : Obligations.ScheduleSplitsExactly := by
  intro s rest prev now hp hwf hcpu htimers hdisplay
  obtain ⟨hframe, hpc, hpend⟩ := hostSchedule_unchanged prev now (s.setPending rest)
  refine ⟨_, step_of_pending_cons hp, hpc, hpend, (hframe.mono (by simp)).of_setPending (by simp),
    fun hle => ?split, fun hlt => ?refused⟩
  case split =>
    obtain ⟨hc, ht, hd⟩ := hostSchedule_fraction (s := s.setPending rest) hle hwf hcpu htimers hdisplay
    exact ⟨_, scheduleCounts_of_le s hle, hc, ht, hd, dueCounts_add_accs (s.setPending rest) hle⟩
  case refused =>
    refine ⟨scheduleCounts_of_lt s hlt, ?_⟩
    rw [hostSchedule_of_lt _ hlt]
    exact ⟨rfl, rfl, rfl⟩

theorem step_frame {s : State} {rest : List HostOp} {prev now : Rat} (hp : s.pending = .frame prev now :: rest) :
    step s = .next (hostFrame prev now (s.setPending rest)) := step_of_pending_cons hp

theorem step_frameRest {s : State} {rest : List HostOp} {c n d : Nat} (hp : s.pending = .frameRest c n d :: rest) :
    step s = hostFrameRest c n d (s.setPending rest) := step_of_pending_cons hp

/-- Settles O54: a frame is a schedule and its counts put before the other calls; each further step counts one off. -/
theorem frameRunsCpuThenTimersThenDisplay : Obligations.FrameRunsCpuThenTimersThenDisplay := by
  refine ⟨fun s rest prev now hp => ⟨fun hle => ?frame, fun hlt => ?refused⟩, fun s rest c n d hp => ?steps⟩
  case frame =>
    have hstep := (step_frame hp).trans (congrArg _ (hostFrame_of_le (s.setPending rest) hle))
    obtain ⟨hframe, hpc, -⟩ := hostSchedule_unchanged prev now (s.setPending rest)
    refine ⟨_, _, scheduleCounts_of_le s hle, hstep, rfl, hpc, ?_, ?_, dueCounts_add_accs (s.setPending rest) hle⟩
    · exact ((hframe.mono (by simp)).trans ((State.unchanged_setPending _ _).mono (by simp))).of_setPending (by simp)
    · rw [hostSchedule_of_le s hle, hostSchedule_of_le (s.setPending rest) hle]
      exact ⟨rfl, rfl, rfl⟩
  case refused => exact (step_frame hp).trans (congrArg _ (hostFrame_of_lt (s.setPending rest) hlt))
  case steps =>
    rw [step_frameRest hp]
    refine ⟨fun hf => hostFrameRest_faulted (s := s.setPending rest) hf c n d, fun hf hc => ?cpu,
      fun hf hc hn => ?timers, fun hf hc hn hd => ?display, fun hf hc hn hd => ?done⟩
    case cpu =>
      obtain ⟨c, rfl⟩ := Nat.exists_eq_succ_of_ne_zero hc.ne'
      exact hostFrameRest_cpu (s := s.setPending rest) hf c n d
    case timers =>
      subst hc
      obtain ⟨n, rfl⟩ := Nat.exists_eq_succ_of_ne_zero hn.ne'
      exact hostFrameRest_timers (s := s.setPending rest) hf n d
    case display =>
      subst hc hn
      obtain ⟨d, rfl⟩ := Nat.exists_eq_succ_of_ne_zero hd.ne'
      exact hostFrameRest_display (s := s.setPending rest) hf d
    case done =>
      subst hc hn hd
      exact hostFrameRest_done (s := s.setPending rest) hf

end Sys2Proof.Machine
end

section
/-! PROOF. The invariant: it holds at creation, each update the machine makes keeps it under its bound, and so does
every instruction that was fetched and every call of the host (R17, R28, R108, R191). -/

namespace Sys2Proof.Machine

/-- The pieces of the state the invariant speaks of. -/
def State.tracked (s : State) : Memory × Params × Word × Vector Word 16 × Rat × Rat × Rat :=
  (s.mem, s.params, s.pc, s.stack, s.accCpu, s.accTimers, s.accDisplay)

theorem State.Inv.of_tracked {s t : State} (h : s.Inv) (heq : t.tracked = s.tracked) : t.Inv := by
  simp only [State.tracked, Prod.mk.injEq] at heq
  obtain ⟨hmem, hparams, hpc, hstack, hcpu, htimers, hdisplay⟩ := heq
  unfold State.Inv
  rwa [hmem, hparams, hpc, hstack, hcpu, htimers, hdisplay]

theorem State.Inv.setPc {s : State} (h : s.Inv) {w : Word} (hw : w.toNat ≤ 0x10FE) : (s.setPc w).Inv := by
  obtain ⟨hmem, hparams, -, hstack, haccs⟩ := h
  exact ⟨hmem, hparams, hw, hstack, haccs⟩

theorem State.Inv.advance {s : State} (h : s.Inv) (hpc : s.pc.toNat + 1 ≤ 0xFFF) : s.advance.Inv :=
  h.setPc (by bv_omega)

theorem State.Inv.advance_skipIf {s : State} (h : s.Inv) (hpc : s.pc.toNat + 1 ≤ 0xFFF) (b : Bool) :
    (s.advance.skipIf b).Inv := by
  rw [s.advance_skipIf]
  refine h.setPc ?_
  split <;> bv_omega

theorem State.Inv.store {s : State} (h : s.Inv) {a : Nat} {bs : List Byte}
    (ha : bs = [] ∨ a + bs.length - 1 ≤ topAddress) : (s.store a bs).Inv := by
  obtain ⟨hmem, hrest⟩ := h
  exact ⟨s.wf_store a bs hmem ha, hrest⟩

/-- The address a call pushes is at most 0x1000: it follows an instruction that was fetched (R17). -/
theorem State.Inv.called {s : State} (h : s.Inv) (hpc : s.pc.toNat + 1 ≤ 0xFFF) (nnn : Imm12) (hroom : s.sp.val < 16) :
    (s.called nnn hroom).Inv := by
  obtain ⟨hmem, hparams, -, hstack, haccs⟩ := h
  have := nnn.isLt
  refine ⟨hmem, hparams, (zext16_toNat nnn).le.trans (by omega), fun k => ?_, haccs⟩
  rw [s.called_stack nnn hroom k]
  split
  · bv_omega
  · exact hstack k

theorem State.Inv.pop {s : State} (h : s.Inv) (hheld : 0 < s.sp.val) : (s.pop hheld).Inv := by
  have htop : (s.stack[s.sp.val - 1]'(by omega)).toNat ≤ 0x1000 := by
    obtain ⟨-, -, -, hstack, -⟩ := h
    exact hstack ⟨s.sp.val - 1, by omega⟩
  exact h.setPc (htop.trans (by decide))

theorem State.Inv.setLogicResult {s : State} (h : s.Inv) (x : RegIx) (r : Byte) : (s.setLogicResult x r).Inv := by
  unfold State.setLogicResult
  split <;> exact h.of_tracked rfl

/-- An instruction that was fetched keeps the invariant. -/
theorem exec_inv {i : Instr} {s t : State} (h : s.Inv) (hpc : s.pc.toNat + 1 ≤ 0xFFF) (hexec : exec i s = .next t) :
    t.Inv := by
  rcases exec_cases hexec with ⟨-, rfl⟩ | ⟨hout, -⟩
  case inl => exact h.of_tracked rfl
  cases i with
  | ret =>
    obtain rfl := next_unique (exec_ret (pos_of_not_outOfRange_ret hout)) hexec
    exact h.pop _
  | call nnn =>
    obtain rfl := next_unique (exec_call (lt_of_not_outOfRange_call hout)) hexec
    exact h.called hpc nnn _
  | jp nnn =>
    cases hexec
    have := nnn.isLt
    exact h.setPc (by rw [zext16_toNat]; omega)
  | jpV0 nnn =>
    cases hexec
    have := nnn.isLt
    have := (s.jumpOffset nnn).isLt
    exact h.setPc (by rw [zext16_add_byteToWord_toNat]; omega)
  | seVxNn | sneVxNn | seVxVy | sneVxVy => cases hexec; exact h.advance_skipIf hpc _
  | skp x =>
    obtain rfl := next_unique (exec_skp (Nat.lt_of_not_le hout)) hexec
    exact h.advance_skipIf hpc _
  | sknp x =>
    obtain rfl := next_unique (exec_sknp (Nat.lt_of_not_le hout)) hexec
    exact h.advance_skipIf hpc _
  | orVxVy x | andVxVy x | xorVxVy x => cases hexec; exact (h.advance hpc).setLogicResult x _
  | ldVxK x =>
    rcases exec_ldVxK_cases x s with ⟨-, hk⟩ | ⟨key, -, hk⟩
    · exact next_unique hk hexec ▸ h
    · obtain rfl := next_unique hk hexec
      exact (h.advance hpc).of_tracked (by simp [State.tracked])
  | drw x y n =>
    obtain rfl := next_unique (exec_drw hout) hexec
    exact (h.advance hpc).of_tracked (by simp [State.tracked, State.drawn])
  | ldBVx x =>
    have hin := Nat.le_of_not_lt hout
    obtain rfl := next_unique (exec_ldBVx hin) hexec
    exact (h.advance hpc).store (.inr hin)
  | ldMemVx x =>
    have hin := Nat.le_of_not_lt hout
    obtain rfl := next_unique (exec_ldMemVx hin) hexec
    have hlast : s.i.toNat + (s.regsUpTo x).length - 1 ≤ topAddress := by rw [State.regsUpTo_length]; exact hin
    exact ((h.advance hpc).store (.inr hlast)).of_tracked (by simp [State.tracked])
  | ldVxMem x =>
    obtain rfl := next_unique (exec_ldVxMem (Nat.le_of_not_lt hout)) hexec
    exact (h.advance hpc).of_tracked (by simp [State.tracked])
  | addVxVy | subVxVy | shrVxVy | subnVxVy | shlVxVy =>
    cases hexec
    exact (h.advance hpc).of_tracked (by simp [State.tracked, State.setResultFlag])
  | _ => cases hexec; exact (h.advance hpc).of_tracked (by simp [State.tracked])

theorem cpuStep_inv {s t : State} (h : s.Inv) (hstep : cpuStep s = .next t) : t.Inv := by
  obtain ⟨-, ⟨-, rfl, -⟩ | ⟨-, -, rfl, -⟩ | ⟨w, e, -, -, -, rfl, -⟩ | ⟨w, i, -, hw, -, hexec, -⟩⟩ :=
    cpuStep_cases s t hstep
  · exact h
  · exact h
  · exact h
  · rcases s.fetch_cases with ⟨-, hnone⟩ | ⟨hpc, -⟩
    · exact absurd (hnone.symm.trans hw) (by simp)
    · exact exec_inv h hpc hexec

theorem creation_inv {p : Params} (hp : p.wf) : (State.creation p).Inv :=
  have hzero : fraction 0 := ⟨le_refl _, zero_lt_one⟩
  ⟨Memory.wf_creation p, hp, (by decide : (0x200 : Word).toNat ≤ 0x10FE), fun k => by simp [State.creation], hzero,
    hzero, hzero⟩

theorem hostReset_inv {s : State} (h : s.Inv) : (hostReset s).Inv := by
  obtain ⟨-, hparams, -, -, haccs⟩ := h
  obtain ⟨hmem, -, hpc, hstack, -⟩ := creation_inv hparams
  exact ⟨hmem, hparams, hpc, hstack, haccs⟩

theorem hostLoad_inv {s : State} (h : s.Inv) (image : List Byte) : (hostLoad image s).Inv := by
  by_cases hfits : image.length ≤ 3584
  · rw [hostLoad_of_le s hfits]
    exact h.store (.inr (by rw [topAddress]; omega))
  · rwa [hostLoad_of_gt s (Nat.lt_of_not_le hfits)]

theorem hostSetKey_inv {s : State} (h : s.Inv) (k : Nat) (pressed : Bool) : (hostSetKey k pressed s).Inv := by
  by_cases hk : k < 16
  · rw [hostSetKey_of_lt s hk]; exact h
  · rwa [hostSetKey_of_ge s hk]

theorem hostSchedule_inv {s : State} (h : s.Inv) (prev now : Rat) : (hostSchedule prev now s).Inv := by
  rcases le_or_gt prev now with hle | hlt
  · obtain ⟨hmem, hparams, hpc, hstack, hcpu, htimers, hdisplay⟩ := h
    have haccs := hostSchedule_fraction hle hparams hcpu htimers hdisplay
    rw [hostSchedule_of_le s hle] at haccs ⊢
    exact ⟨hmem, hparams, hpc, hstack, haccs⟩
  · rwa [hostSchedule_of_lt s hlt]

theorem hostFrame_inv {s : State} (h : s.Inv) (prev now : Rat) : (hostFrame prev now s).Inv := by
  rcases le_or_gt prev now with hle | hlt
  · rw [hostFrame_of_le s hle]; exact hostSchedule_inv h prev now
  · rwa [hostFrame_of_lt s hlt]

theorem hostFrameRest_inv {c n d : Nat} {s t : State} (h : s.Inv) (hcall : hostFrameRest c n d s = .next t) :
    t.Inv := by
  rcases hostFrameRest_cases c n d s t hcall with ⟨-, rfl⟩ | ⟨-, ⟨c', -, hcpu⟩ | ⟨n', -, -, rfl⟩ |
    ⟨d', -, -, -, rfl⟩ | ⟨-, -, -, rfl⟩⟩
  · exact h
  · exact cpuStep_inv (s := s.setPending (.frameRest c' n d :: s.pending)) h hcpu
  · exact h
  · exact h
  · exact h

theorem hostCall_inv {op : HostOp} {s t : State} (h : s.Inv) (hcall : hostCall op s = .next t) : t.Inv := by
  cases op with
  | cpuStep => exact cpuStep_inv h hcall
  | frameRest => exact hostFrameRest_inv h hcall
  | reset => cases hcall; exact hostReset_inv h
  | load image => cases hcall; exact hostLoad_inv h image
  | setKey k pressed => cases hcall; exact hostSetKey_inv h k pressed
  | schedule prev now => cases hcall; exact hostSchedule_inv h prev now
  | frame prev now => cases hcall; exact hostFrame_inv h prev now
  | selectProfile | timerTick | displayTick => cases hcall; exact h

/-- Settles O56: a step is a `cpu_step` or a call of the host, and both keep the invariant. -/
theorem stepKeepsInvariant : Obligations.StepKeepsInvariant := by
  intro s t h hstep
  rcases step_cases s t hstep with ⟨-, hcpu⟩ | ⟨op, rest, -, hcall⟩
  · exact cpuStep_inv h hcpu
  · exact hostCall_inv (s := s.setPending rest) h hcall

theorem defaultParams_wf : defaultParams.wf := by
  refine ⟨by decide, ?_, ?_, ?_⟩ <;> simp [defaultParams]

/-- Settles O55: creation meets the invariant for every value of the parameters, the defaults among them. -/
theorem creationMeetsInvariant : Obligations.CreationMeetsInvariant := creation_inv defaultParams_wf

end Sys2Proof.Machine
end
